-- ==== Sys2Proof/Word.lean ====
section
/-! DEFINITION. The two word types of the machine (00_scope.md R9): everything the spec adds, masks or shifts is one of
them. Their slicing, extension and concatenation helpers are in Machine/Bits.lean. -/

namespace Sys2Proof

/-- A byte: a register, a memory cell, an operand byte. -/
abbrev Byte := BitVec 8

/-- A 16-bit word: the program counter and every address. -/
abbrev Word := BitVec 16

end Sys2Proof
end

