-- ==== Sys2Proof/Machine/Bits.lean ====
section
/-! DEFINITION. The bit-field, extension and byte-order helpers of the notation (00_scope.md R9). -/

namespace Sys2Proof

/-- `lo8(w) = w[7:0]` (R9). -/
def lo8 (w : Word) : Byte := w.extractLsb' 0 8

/-- `hi8(w) = w[15:8]` (R9). -/
def hi8 (w : Word) : Byte := w.extractLsb' 8 8

/-- `{hi, lo}`, the word of two bytes (R9); words are little-endian in memory (20_memory.md R57). -/
def wordOf (hi lo : Byte) : Word := hi ++ lo

/-- `zext_16(b)` (R9). -/
def zext16 (b : Byte) : Word := b.zeroExtend 16

/-- `sext_16(b)`, two's-complement sign extension (R9). -/
def sext16 (b : Byte) : Word := b.signExtend 16

end Sys2Proof
end

