-- ==== Sys2Proof/Machine/Flags.lean ====
section
/-! DEFINITION. The status register's bits (10_state.md R26) and every flag computation of the instruction set:
`SetZN` (40_engine_addressing.md R118), add and subtract with carry and the compares (42_arithmetic_compare.md R160 to
R164), BIT, shifts and rotates (43_logic_shift.md R183 to R187). All on plain bytes. -/

namespace Sys2Proof.Machine

/-- The eight bits of `P` (10_state.md R26). -/
inductive Flag where
  | c | z | i | d | b | u | v | n
  deriving DecidableEq, Repr

/-- The bit number of a flag (10_state.md R26). -/
def Flag.index : Flag → Nat
  | .c => 0
  | .z => 1
  | .i => 2
  | .d => 3
  | .b => 4
  | .u => 5
  | .v => 6
  | .n => 7

/-- The mask of a flag (10_state.md R26). -/
def Flag.mask : Flag → Byte
  | .c => 0x01#8
  | .z => 0x02#8
  | .i => 0x04#8
  | .d => 0x08#8
  | .b => 0x10#8
  | .u => 0x20#8
  | .v => 0x40#8
  | .n => 0x80#8

/-- Read a flag of a status byte. -/
def getFlag (f : Flag) (p : Byte) : Bool := p.getLsbD f.index

/-- Write a flag of a status byte: "A rule that writes a flag writes only that bit" (00_scope.md R10). -/
def putFlag (f : Flag) (b : Bool) (p : Byte) : Byte :=
  if b then p ||| f.mask else p &&& ~~~f.mask

/-- `SetZN(v)`: `P.Z <- (v = 0); P.N <- v[7]` (40_engine_addressing.md R118). -/
def setZN (v p : Byte) : Byte := putFlag .n (v.getLsbD 7) (putFlag .z (v == 0x00#8) p)

/-- The unbounded sum `A + M + P.C` of ADC (42_arithmetic_compare.md R160). -/
def addSum (a m : Byte) (c : Bool) : Nat := a.toNat + m.toNat + c.toNat

/-- The overflow bit of ADC: `((A ^ r) & (M ^ r))[7]` (42_arithmetic_compare.md R160). -/
def addOverflow (a m r : Byte) : Bool := ((a ^^^ r) &&& (m ^^^ r)).getLsbD 7

/-- ADC on bytes: the result and the new status byte (42_arithmetic_compare.md R160). The decimal flag takes no part
(R159). -/
def addWithCarry (a m p : Byte) : Byte × Byte :=
  let t := addSum a m (getFlag .c p)
  let r := BitVec.ofNat 8 t
  (r, setZN r (putFlag .v (addOverflow a m r) (putFlag .c (decide (0xFF < t)) p)))

/-- SBC on bytes: "SBC is ADC of the one's complement of the operand" (42_arithmetic_compare.md R161). -/
def subWithCarry (a m p : Byte) : Byte × Byte := addWithCarry a (m ^^^ 0xFF#8) p

/-- The compare of a register with a byte: `P.C <- (reg >= M); SetZN(reg -8 M)` (42_arithmetic_compare.md R162 to R164). -/
def compareFlags (reg m p : Byte) : Byte :=
  setZN (reg - m) (putFlag .c (decide (m.toNat ≤ reg.toNat)) p)

/-- BIT: Z from `A & M`, N and V from bits 7 and 6 of `M` (43_logic_shift.md R183). -/
def bitFlags (a m p : Byte) : Byte :=
  putFlag .v (m.getLsbD 6) (putFlag .n (m.getLsbD 7) (putFlag .z (a &&& m == 0x00#8) p))

/-- The status byte of a shift whose result is `r` and which shifts `out` out into C (43_logic_shift.md R184 to R187). -/
def shiftFlags (out : Bool) (r p : Byte) : Byte := setZN r (putFlag .c out p)

/-- ASL on a byte: the result and the new status byte (43_logic_shift.md R184). -/
def aslByte (v p : Byte) : Byte × Byte :=
  let r := v <<< 1
  (r, shiftFlags (v.getLsbD 7) r p)

/-- LSR on a byte (43_logic_shift.md R185). -/
def lsrByte (v p : Byte) : Byte × Byte :=
  let r := v >>> 1
  (r, shiftFlags (v.getLsbD 0) r p)

/-- ROL on a byte: the carry before the instruction enters at bit 0 (43_logic_shift.md R186). -/
def rolByte (v p : Byte) : Byte × Byte :=
  let r := (v <<< 1) ||| (if getFlag .c p then 0x01#8 else 0x00#8)
  (r, shiftFlags (v.getLsbD 7) r p)

/-- ROR on a byte: the carry before the instruction enters at bit 7 (43_logic_shift.md R187). -/
def rorByte (v p : Byte) : Byte × Byte :=
  let r := (v >>> 1) ||| (if getFlag .c p then 0x80#8 else 0x00#8)
  (r, shiftFlags (v.getLsbD 0) r p)

/-- INC on a byte: modulo 256, Z and N only (42_arithmetic_compare.md R165). -/
def incByte (v p : Byte) : Byte × Byte :=
  let r := v + 1#8
  (r, setZN r p)

/-- DEC on a byte (42_arithmetic_compare.md R168). -/
def decByte (v p : Byte) : Byte × Byte :=
  let r := v - 1#8
  (r, setZN r p)

end Sys2Proof.Machine
end

