-- ==== Sys2Proof/Config.lean ====
section
/-! DEFINITION. What is fixed for a machine: the sizes and addresses of 00_scope.md R6 ("Fixed, not parameters") and the
types of its implementation parameters. -/

namespace Sys2Proof

/-- Bytes of internal RAM (R6, R30). -/
abbrev Config.ramSize : Nat := 0x0800

/-- Bytes of one unit of PRG data, 16 KB (R6, R52). -/
abbrev Config.prgUnitSize : Nat := 0x4000

/-- Bytes of one unit of CHR data, 8 KB (R52). -/
abbrev Config.chrUnitSize : Nat := 0x2000

/-- First address of the stack page (R6, R24). -/
abbrev Config.stackPage : Word := 0x0100#16

/-- Address of the reset vector (R6, R251). -/
abbrev Config.resetVector : Word := 0xFFFC#16

/-- Address of the BRK vector, which the source calls the IRQ vector (R6, R251). -/
abbrev Config.brkVector : Word := 0xFFFE#16

/-- The number of 16 KB units of PRG data: 1 or 2 (R6; decision D13). One unit turns on mirroring (R52). -/
inductive PrgUnits where
  | one
  | two
  deriving DecidableEq, Repr, Inhabited

/-- `PRG_UNITS` as a number. -/
def PrgUnits.count : PrgUnits → Nat
  | .one => 1
  | .two => 2

/-- The OPEN parameter `ZP_PTR_WRAP` (R6, R113; decision D2): where the high byte of a zero-page pointer at 0xFF is read
from. -/
inductive ZpPtrWrap where
  /-- From 0x0000. -/
  | wrap
  /-- From 0x0100. -/
  | nowrap
  deriving DecidableEq, Repr, Inhabited

/-- The parameters of the step relation, which stay fixed during a run (R6, R35). `prg` lists the program image by offset
in the canonical form of Machine/Ops.lean. -/
structure Params where
  prgUnits  : PrgUnits
  prg       : List Host.Cell
  zpPtrWrap : ZpPtrWrap
  deriving DecidableEq, Repr, Inhabited

end Sys2Proof
end

