-- ==== Sys2Proof/Machine/Params.lean ====
section
/-! DEFINITION. The parameters of the reset state. The spec leaves all three to whoever launches the machine (00_scope.md
R6), so each value here is the model's (log entries 2, 3, 4); every statement holds for every value of them. -/

namespace Sys2Proof

/-- DESIGN CHOICE (log entry 3): one unit of PRG, the setting of 95_test_vectors.md section 1. Unsafe for a claim about the
run from reset alone. -/
def Params.resetUnits : PrgUnits := .one

/-- DESIGN CHOICE (log entry 2): no byte of the program image listed; no program is invented. Unsafe for a claim about the
run from reset alone. -/
def Params.resetImage : List Host.Cell := []

/-- DESIGN CHOICE (log entry 4): `ZP_PTR_WRAP` is OPEN (decision D2); the reset state carries the reading that
40_engine_addressing.md R113 takes from the source's text. Unsafe for a claim about the run from reset alone. -/
def Params.resetZpPtrWrap : ZpPtrWrap := .nowrap

/-- The parameters of the reset state. -/
def Params.atReset : Params :=
  { prgUnits := Params.resetUnits, prg := Params.resetImage, zpPtrWrap := Params.resetZpPtrWrap }

end Sys2Proof
end

