-- ==== Sys2Proof/Machine/State.lean ====
section
/-! DEFINITION. The state of the machine (10_state.md), its fatal conditions (60_exceptions.md R240 to R245), and the state
after reset. -/

namespace Sys2Proof.Machine

/-- The unimplemented region of an access (60_exceptions.md R241). -/
inductive Region where
  | ppu
  | apuIo
  deriving DecidableEq, Repr, Inhabited

/-- Whether an access reads or writes (60_exceptions.md R241). -/
inductive AccessKind where
  | read
  | write
  deriving DecidableEq, Repr, Inhabited

/-- The four fatal conditions with their info (60_exceptions.md R240 to R245). Each is the spec's own: the model stops
exactly where the hardware stops, so each is safe. -/
inductive Fault where
  /-- Raised by decode of an opcode byte not in the map, before any operand byte is read (R244). Safe. -/
  | unsupportedOpcode (opcode : Byte) (addr : Word)
  /-- Raised by any bus access to 0x2000 to 0x401F: opcode or operand fetch, pointer load, data load or store (R241). Safe. -/
  | unimplementedRegion (region : Region) (kind : AccessKind) (addr : Word)
  /-- Raised by any store to 0x8000 to 0xFFFF (R242). Safe. -/
  | readOnlyWrite (addr : Word)
  /-- Raised by any bus access to 0x4020 to 0x7FFF (R243). Safe. -/
  | mapperRange (kind : AccessKind) (addr : Word)
  deriving DecidableEq, Repr, Inhabited

/-- The cause code (60_exceptions.md R245; decision D25). It is a label and is stored nowhere. -/
def Fault.code : Fault → Nat
  | .unsupportedOpcode _ _ => 1
  | .unimplementedRegion _ _ _ => 2
  | .readOnlyWrite _ => 3
  | .mapperRange _ _ => 4

/-- Why an instruction has no meaning. No instruction of the opcode table is refused. -/
inductive Refusal where
  /-- Raised by exec's arm of an instruction the model gives no meaning yet; there is none. Safe. -/
  | notModelled (mnemonic : String)
  deriving DecidableEq, Repr, Inhabited

/-- The run status (10_state.md R32). -/
inductive RunStatus where
  | running
  | faulted (cause : Fault)
  deriving DecidableEq, Repr, Inhabited

/-- The whole state (10_state.md R20): the Register File, internal RAM and the run status; and, because the step takes
nothing but the state, the fixed parameters of the step relation (R35; log entry 5). -/
structure State where
  /-- `A`, the accumulator (R21). -/
  a      : Byte
  /-- `X`, index register (R22). -/
  x      : Byte
  /-- `Y`, index register (R23). -/
  y      : Byte
  /-- `S`, the stack pointer: the next free slot of the stack page (R24). -/
  s      : Byte
  /-- The program counter (R25). -/
  pc     : Word
  /-- `P`, the status register; all eight bits are storage (R26). -/
  p      : Byte
  /-- Internal RAM by index 0 to 2047 (R30), in the canonical form of Machine/Ops.lean. -/
  ram    : List Host.Cell
  /-- The run status (R32). -/
  status : RunStatus
  /-- `PRG_UNITS`, `PRG` and `ZP_PTR_WRAP` (R35). No step changes them. -/
  params : Params
  deriving DecidableEq, Repr, Inhabited

namespace State

/-! One named update per field, so that every write goes through one place (lemmas in Laws/State.lean). -/

def setA (st : State) (v : Byte) : State := { st with a := v }
def setX (st : State) (v : Byte) : State := { st with x := v }
def setY (st : State) (v : Byte) : State := { st with y := v }
def setS (st : State) (v : Byte) : State := { st with s := v }
def setPc (st : State) (w : Word) : State := { st with pc := w }
def setP (st : State) (v : Byte) : State := { st with p := v }
def setRam (st : State) (m : List Host.Cell) : State := { st with ram := m }
def setStatus (st : State) (r : RunStatus) : State := { st with status := r }
def setParams (st : State) (q : Params) : State := { st with params := q }

end State

/-- Creation (70_reset_and_hazards.md R260): the Register File zero-initialized, RAM = RAM0, `Running`. -/
def create (params : Params) (ram0 : List Host.Cell) : State :=
  { a := 0x00#8, x := 0x00#8, y := 0x00#8, s := 0x00#8, pc := 0x0000#16, p := 0x00#8,
    ram := ram0, status := .running, params := params }

/-- The machine right after creation and `power_up()` (10_state.md R34; 70_reset_and_hazards.md R260, R261), with the
parameters and the RAM of log entries 1 to 4. `pc` is the word at 0xFFFC of an image whose bytes are all 0x00
(Laws/Power.lean proves that this state is what `powerUp` gives). -/
def State.reset : State :=
  { a := 0x00#8, x := 0x00#8, y := 0x00#8, s := 0xFD#8, pc := 0x0000#16, p := 0x04#8,
    ram := [], status := .running, params := Params.atReset }

/-- FREE VALUE (log entry 8): what the registers and RAM hold after a fatal condition met in a state. "The values of the
registers and of RAM in a `Faulted` machine are not defined by this spec" (10_state.md R32, decision D8), so this is an
opaque constant: nothing can be proved about what it answers. -/
opaque State.faultLeaves : Fault → State → State

end Sys2Proof.Machine
end

