-- ==== Sys2Proof/Machine/Ops.lean ====
section
/-! DEFINITION. The named operations over memory and registers: the sparse stores, the System Bus and the cartridge mapper
(20_memory.md), fetch and the stack primitives (40_engine_addressing.md R101, R102, R120 to R123), the one trap-like event
BRK with its return (60_exceptions.md R249, R250), and power-up (70_reset_and_hazards.md R261, R262). An operation that
makes a bus access answers `.error` with the fatal condition of the first access that faults (60_exceptions.md R247). -/

namespace Sys2Proof.Machine

/-! ## Sparse stores -/

/-- A store of bytes by index: a list of (index, byte) pairs. Canonical when `Memory.wf` holds. -/
abbrev Memory := List Host.Cell

/-- What an index that is not listed reads as. DESIGN CHOICE 0x00 (log entries 1 and 2). -/
def Memory.unlisted : Byte := 0x00#8

/-- Read one byte of a store. -/
def Memory.get : Memory → Nat → Byte
  | [], _ => Memory.unlisted
  | (k, v) :: rest, i => if k = i then v else Memory.get rest i

/-- Write one byte of a store. Writing what an unlisted index reads as removes the entry. -/
def Memory.set (m : Memory) (i : Nat) (v : Byte) : Memory :=
  m.filter (fun c => c.1 < i) ++ (if v = Memory.unlisted then [] else [(i, v)]) ++ m.filter (fun c => i < c.1)

/-- The canonical form: indexes strictly rising, no entry equal to what an unlisted index reads as. -/
abbrev Memory.wf (m : Memory) : Prop :=
  m.Pairwise (fun c d => c.1 < d.1) ∧ ∀ c ∈ m, c.2 ≠ Memory.unlisted

/-- Every listed index lies inside a store of `size` bytes. -/
abbrev Memory.within (m : Memory) (size : Nat) : Prop := ∀ c ∈ m, c.1 < size

/-! ## The System Bus and the cartridge mapper -/

/-- The target of an address (20_memory.md R42): an index of internal RAM, an unimplemented region, or the cartridge. -/
inductive Target where
  | ram (i : Nat)
  | unimplemented (r : Region)
  | cartridge
  deriving DecidableEq, Repr

/-- The address decoder (20_memory.md R42, R43): "every address in 0..=0xFFFF resolves to exactly one target". -/
def busTarget (addr : Word) : Target :=
  if addr.toNat ≤ 0x1FFF then .ram (addr.toNat % Config.ramSize)
  else if addr.toNat ≤ 0x3FFF then .unimplemented .ppu
  else if addr.toNat ≤ 0x401F then .unimplemented .apuIo
  else .cartridge

/-- The offset into PRG of an address at or above 0x8000 (20_memory.md R53): one unit mirrors 0xC000 to 0xFFFF. -/
def prgOffset (units : PrgUnits) (addr : Word) : Nat :=
  if units = .one ∧ 0xBFFF < addr.toNat then addr.toNat - 0xC000 else addr.toNat - 0x8000

/-- `MapperLoad(addr)` of the NROM-equivalent mapper (20_memory.md R53, R54). -/
def mapperLoad (addr : Word) (st : State) : Except Fault Byte :=
  if addr.toNat < 0x8000 then .error (.mapperRange .read addr)
  else .ok (Memory.get st.params.prg (prgOffset st.params.prgUnits addr))

/-- `MapperStore(addr, v)` of the NROM-equivalent mapper (20_memory.md R55, R56): every store fails, whatever the byte. -/
def mapperStore (addr : Word) : Fault :=
  if addr.toNat < 0x8000 then .mapperRange .write addr else .readOnlyWrite addr

/-- `BusLoad(addr)` (20_memory.md R44). A load changes no state. -/
def busLoad (addr : Word) (st : State) : Except Fault Byte :=
  match busTarget addr with
  | .ram i => .ok (Memory.get st.ram i)
  | .unimplemented r => .error (.unimplementedRegion r .read addr)
  | .cartridge => mapperLoad addr st

/-- `BusStore(addr, v)` (20_memory.md R45). -/
def busStore (addr : Word) (v : Byte) (st : State) : Except Fault State :=
  match busTarget addr with
  | .ram i => .ok (st.setRam (Memory.set st.ram i v))
  | .unimplemented r => .error (.unimplementedRegion r .write addr)
  | .cartridge => .error (mapperStore addr)

/-- `MemRead(addr, 2)`, the source's `load_word`: low byte first, then the byte at `addr +16 1` (20_memory.md R58). -/
def loadWord (addr : Word) (st : State) : Except Fault Word := do
  let lo ← busLoad addr st
  let hi ← busLoad (addr + 1#16) st
  pure (wordOf hi lo)

/-- `MemWrite(addr, 2, w)`, the source's `store_word` (20_memory.md R59). No instruction uses it. -/
def storeWord (addr : Word) (w : Word) (st : State) : Except Fault State := do
  let st1 ← busStore addr (lo8 w) st
  busStore (addr + 1#16) (hi8 w) st1

/-! ## Fetch -/

/-- `Fetch8()` (40_engine_addressing.md R101). -/
def fetch8 (st : State) : Except Fault (Byte × State) := do
  let b ← busLoad st.pc st
  pure (b, st.setPc (st.pc + 1#16))

/-- `Fetch16()`, the next little-endian word (40_engine_addressing.md R102). -/
def fetch16 (st : State) : Except Fault (Word × State) := do
  let (lo, st1) ← fetch8 st
  let (hi, st2) ← fetch8 st1
  pure (wordOf hi lo, st2)

/-! ## Stack -/

/-- The address of a stack slot, `0x0100 | zext_16(S)` (40_engine_addressing.md R120). -/
def stackAddr (sp : Byte) : Word := Config.stackPage ||| zext16 sp

/-- `Push8(v)` (40_engine_addressing.md R120). -/
def push8 (v : Byte) (st : State) : Except Fault State := do
  let st1 ← busStore (stackAddr st.s) v st
  pure (st1.setS (st1.s - 1#8))

/-- `Pull8()` (40_engine_addressing.md R121). -/
def pull8 (st : State) : Except Fault (Byte × State) := do
  let st1 := st.setS (st.s + 1#8)
  let v ← busLoad (stackAddr st1.s) st1
  pure (v, st1)

/-- `Push16(w)`: the high byte first (40_engine_addressing.md R122). -/
def push16 (w : Word) (st : State) : Except Fault State := do
  let st1 ← push8 (hi8 w) st
  push8 (lo8 w) st1

/-- `Pull16()`: the low byte first (40_engine_addressing.md R123). -/
def pull16 (st : State) : Except Fault (Word × State) := do
  let (lo, st1) ← pull8 st
  let (hi, st2) ← pull8 st1
  pure (wordOf hi lo, st2)

/-! ## Register and flag updates shared by the instructions -/

/-- `P` with `SetZN(v)` applied (40_engine_addressing.md R118). -/
def State.flagZN (st : State) (v : Byte) : State := st.setP (setZN v st.p)

/-- `A <- v; SetZN(A)`. -/
def State.putA (st : State) (v : Byte) : State := (st.setA v).flagZN v

/-- `X <- v; SetZN(X)`. -/
def State.putX (st : State) (v : Byte) : State := (st.setX v).flagZN v

/-- `Y <- v; SetZN(Y)`. -/
def State.putY (st : State) (v : Byte) : State := (st.setY v).flagZN v

/-- One flag written, the other seven kept. -/
def State.putFlag (st : State) (f : Flag) (b : Bool) : State := st.setP (Machine.putFlag f b st.p)

/-! ## The software interrupt and its return -/

/-- TAKING THE TRAP, the entry of 60_exceptions.md R249 as 45_stack_flag_system.md R232 writes it: push the address two past
the opcode (`pc` is one past it here), set B, push `P`, set I, load `pc` from the BRK vector. -/
def enterTrap (st : State) : Except Fault State := do
  let st1 ← push16 (st.pc + 1#16) st
  let st2 := st1.putFlag .b true
  let st3 ← push8 st2.p st2
  let st4 := st3.putFlag .i true
  let handler ← loadWord Config.brkVector st4
  pure (st4.setPc handler)

/-- RETURNING FROM IT (60_exceptions.md R250; 45_stack_flag_system.md R233): all eight bits of `P`, then `pc` with no
increment. -/
def returnFromTrap (st : State) : Except Fault State := do
  let (p, st1) ← pull8 st
  let (w, st2) ← pull16 (st1.setP p)
  pure (st2.setPc w)

/-! ## Power-up -/

/-- The part of power-up before `pc` is set (70_reset_and_hazards.md R261). -/
def powerUpRegisters (st : State) : State :=
  ((((st.setA 0x00#8).setX 0x00#8).setY 0x00#8).setS 0xFD#8).putFlag .i true

/-- `power_up()` (70_reset_and_hazards.md R261), from any state. -/
def powerUp (st : State) : Except Fault State := do
  let st1 := powerUpRegisters st
  let w ← loadWord Config.resetVector st1
  pure (st1.setPc w)

/-- `power_up_with_override(pc)`: the vector is not read (70_reset_and_hazards.md R262). -/
def powerUpWithOverride (startPc : Word) (st : State) : State := (powerUpRegisters st).setPc startPc

/-! ## Ending a meaning -/

/-- The outcome of an operation that can end in a fatal condition. -/
def finish (r : Except Fault State) : Host.Outcome State Fault Refusal :=
  match r with
  | .ok st => .next st
  | .error f => .fault f

end Sys2Proof.Machine
end

