-- ==== Sys2Proof/Syntax.lean ====
section
/-! DEFINITION. The instructions as syntax (30_encoding.md): mnemonics, formats, operands, and one constructor of `Instr`
for each of the 151 rows of opcode_table.json, named by its mnemonic and, where the mnemonic has several, its format. -/

namespace Sys2Proof

/-- The 56 mnemonics (30_encoding.md R87). -/
inductive Mnemonic where
  | lda | ldx | ldy | sta | stx | sty | tax | tay
  | txa | tya | tsx | txs | adc | sbc | cmp | cpx
  | cpy | inc | inx | iny | dec | dex | dey | and
  | ora | eor | bit | asl | lsr | rol | ror | bcc
  | bcs | beq | bne | bmi | bpl | bvc | bvs | jmp
  | jsr | rts | pha | pla | php | plp | clc | sec
  | cli | sei | clv | cld | sed | nop | brk | rti
  deriving DecidableEq, Repr

/-- The thirteen formats (30_encoding.md R81). -/
inductive Format where
  | imp | acc | imm | zp | zpx | zpy | abs | abx | aby | ind | izx | izy | rel
  deriving DecidableEq, Repr

/-- The operand bytes a format consumes (30_encoding.md R80, R81). -/
def Format.operandBytes : Format → Nat
  | .imp | .acc => 0
  | .imm | .zp | .zpx | .zpy | .izx | .izy | .rel => 1
  | .abs | .abx | .aby | .ind => 2

/-- The eight formats that yield the effective address of a data byte, with their operand field: a zero-page address `zp8`
or a 16-bit `addr16` (30_encoding.md R81, R82). -/
inductive MemMode where
  | zp (z : Byte)
  | zpx (z : Byte)
  | zpy (z : Byte)
  | abs (w : Word)
  | abx (w : Word)
  | aby (w : Word)
  | izx (z : Byte)
  | izy (z : Byte)
  deriving DecidableEq, Repr

/-- The format of a memory operand. -/
def MemMode.format : MemMode → Format
  | .zp _ => .zp
  | .zpx _ => .zpx
  | .zpy _ => .zpy
  | .abs _ => .abs
  | .abx _ => .abx
  | .aby _ => .aby
  | .izx _ => .izx
  | .izy _ => .izy

/-- An operand: its format and the value of its field (30_encoding.md R81, R82). -/
inductive Operand where
  /-- IMP: no operand. -/
  | imp
  /-- ACC: the operand is register `A`. -/
  | acc
  /-- IMM: `imm8`. -/
  | imm (v : Byte)
  /-- ZP, ZPX, ZPY, ABS, ABX, ABY, IZX, IZY. -/
  | mem (m : MemMode)
  /-- IND: the `addr16` of JMP's pointer. -/
  | ind (w : Word)
  /-- REL: the displacement `rel8`. -/
  | rel (d : Byte)
  deriving DecidableEq, Repr

/-- The format of an operand. -/
def Operand.format : Operand → Format
  | .imp => .imp
  | .acc => .acc
  | .imm _ => .imm
  | .mem m => m.format
  | .ind _ => .ind
  | .rel _ => .rel

/-- The operand of an instruction that reads one byte and writes none back: IMM, or a memory format
(40_engine_addressing.md R119). -/
inductive Source where
  | imm (v : Byte)
  | mem (m : MemMode)
  deriving DecidableEq, Repr

/-- A source as an operand. -/
def Source.operand : Source → Operand
  | .imm v => .imm v
  | .mem m => .mem m

/-- The instructions: one constructor for each row of opcode_table.json, in the order of 30_encoding.md R87. -/
inductive Instr where
  -- LDA, 41_load_store_transfer.md R140
  | ldaImm (v : Byte)
  | ldaZp (z : Byte)
  | ldaZpx (z : Byte)
  | ldaAbs (w : Word)
  | ldaAbx (w : Word)
  | ldaAby (w : Word)
  | ldaIzx (z : Byte)
  | ldaIzy (z : Byte)
  -- LDX, 41_load_store_transfer.md R141
  | ldxImm (v : Byte)
  | ldxZp (z : Byte)
  | ldxZpy (z : Byte)
  | ldxAbs (w : Word)
  | ldxAby (w : Word)
  -- LDY, 41_load_store_transfer.md R142
  | ldyImm (v : Byte)
  | ldyZp (z : Byte)
  | ldyZpx (z : Byte)
  | ldyAbs (w : Word)
  | ldyAbx (w : Word)
  -- STA, 41_load_store_transfer.md R143
  | staZp (z : Byte)
  | staZpx (z : Byte)
  | staAbs (w : Word)
  | staAbx (w : Word)
  | staAby (w : Word)
  | staIzx (z : Byte)
  | staIzy (z : Byte)
  -- STX, 41_load_store_transfer.md R144
  | stxZp (z : Byte)
  | stxZpy (z : Byte)
  | stxAbs (w : Word)
  -- STY, 41_load_store_transfer.md R145
  | styZp (z : Byte)
  | styZpx (z : Byte)
  | styAbs (w : Word)
  -- TAX, 41_load_store_transfer.md R146
  | tax
  -- TAY, 41_load_store_transfer.md R147
  | tay
  -- TXA, 41_load_store_transfer.md R148
  | txa
  -- TYA, 41_load_store_transfer.md R149
  | tya
  -- TSX, 41_load_store_transfer.md R150
  | tsx
  -- TXS, 41_load_store_transfer.md R151
  | txs
  -- ADC, 42_arithmetic_compare.md R160
  | adcImm (v : Byte)
  | adcZp (z : Byte)
  | adcZpx (z : Byte)
  | adcAbs (w : Word)
  | adcAbx (w : Word)
  | adcAby (w : Word)
  | adcIzx (z : Byte)
  | adcIzy (z : Byte)
  -- SBC, 42_arithmetic_compare.md R161
  | sbcImm (v : Byte)
  | sbcZp (z : Byte)
  | sbcZpx (z : Byte)
  | sbcAbs (w : Word)
  | sbcAbx (w : Word)
  | sbcAby (w : Word)
  | sbcIzx (z : Byte)
  | sbcIzy (z : Byte)
  -- CMP, 42_arithmetic_compare.md R162
  | cmpImm (v : Byte)
  | cmpZp (z : Byte)
  | cmpZpx (z : Byte)
  | cmpAbs (w : Word)
  | cmpAbx (w : Word)
  | cmpAby (w : Word)
  | cmpIzx (z : Byte)
  | cmpIzy (z : Byte)
  -- CPX, 42_arithmetic_compare.md R163
  | cpxImm (v : Byte)
  | cpxZp (z : Byte)
  | cpxAbs (w : Word)
  -- CPY, 42_arithmetic_compare.md R164
  | cpyImm (v : Byte)
  | cpyZp (z : Byte)
  | cpyAbs (w : Word)
  -- INC, 42_arithmetic_compare.md R165
  | incZp (z : Byte)
  | incZpx (z : Byte)
  | incAbs (w : Word)
  | incAbx (w : Word)
  -- INX, 42_arithmetic_compare.md R166
  | inx
  -- INY, 42_arithmetic_compare.md R167
  | iny
  -- DEC, 42_arithmetic_compare.md R168
  | decZp (z : Byte)
  | decZpx (z : Byte)
  | decAbs (w : Word)
  | decAbx (w : Word)
  -- DEX, 42_arithmetic_compare.md R169
  | dex
  -- DEY, 42_arithmetic_compare.md R170
  | dey
  -- AND, 43_logic_shift.md R180
  | andImm (v : Byte)
  | andZp (z : Byte)
  | andZpx (z : Byte)
  | andAbs (w : Word)
  | andAbx (w : Word)
  | andAby (w : Word)
  | andIzx (z : Byte)
  | andIzy (z : Byte)
  -- ORA, 43_logic_shift.md R181
  | oraImm (v : Byte)
  | oraZp (z : Byte)
  | oraZpx (z : Byte)
  | oraAbs (w : Word)
  | oraAbx (w : Word)
  | oraAby (w : Word)
  | oraIzx (z : Byte)
  | oraIzy (z : Byte)
  -- EOR, 43_logic_shift.md R182
  | eorImm (v : Byte)
  | eorZp (z : Byte)
  | eorZpx (z : Byte)
  | eorAbs (w : Word)
  | eorAbx (w : Word)
  | eorAby (w : Word)
  | eorIzx (z : Byte)
  | eorIzy (z : Byte)
  -- BIT, 43_logic_shift.md R183
  | bitZp (z : Byte)
  | bitAbs (w : Word)
  -- ASL, 43_logic_shift.md R184
  | aslAcc
  | aslZp (z : Byte)
  | aslZpx (z : Byte)
  | aslAbs (w : Word)
  | aslAbx (w : Word)
  -- LSR, 43_logic_shift.md R185
  | lsrAcc
  | lsrZp (z : Byte)
  | lsrZpx (z : Byte)
  | lsrAbs (w : Word)
  | lsrAbx (w : Word)
  -- ROL, 43_logic_shift.md R186
  | rolAcc
  | rolZp (z : Byte)
  | rolZpx (z : Byte)
  | rolAbs (w : Word)
  | rolAbx (w : Word)
  -- ROR, 43_logic_shift.md R187
  | rorAcc
  | rorZp (z : Byte)
  | rorZpx (z : Byte)
  | rorAbs (w : Word)
  | rorAbx (w : Word)
  -- BCC, 44_branch_jump.md R200
  | bcc (d : Byte)
  -- BCS, 44_branch_jump.md R201
  | bcs (d : Byte)
  -- BEQ, 44_branch_jump.md R202
  | beq (d : Byte)
  -- BNE, 44_branch_jump.md R203
  | bne (d : Byte)
  -- BMI, 44_branch_jump.md R204
  | bmi (d : Byte)
  -- BPL, 44_branch_jump.md R205
  | bpl (d : Byte)
  -- BVC, 44_branch_jump.md R206
  | bvc (d : Byte)
  -- BVS, 44_branch_jump.md R207
  | bvs (d : Byte)
  -- JMP, 44_branch_jump.md R208
  | jmpAbs (w : Word)
  | jmpInd (w : Word)
  -- JSR, 44_branch_jump.md R209
  | jsr (w : Word)
  -- RTS, 44_branch_jump.md R210
  | rts
  -- PHA, 45_stack_flag_system.md R220
  | pha
  -- PLA, 45_stack_flag_system.md R221
  | pla
  -- PHP, 45_stack_flag_system.md R222
  | php
  -- PLP, 45_stack_flag_system.md R223
  | plp
  -- CLC, 45_stack_flag_system.md R224
  | clc
  -- SEC, 45_stack_flag_system.md R225
  | sec
  -- CLI, 45_stack_flag_system.md R226
  | cli
  -- SEI, 45_stack_flag_system.md R227
  | sei
  -- CLV, 45_stack_flag_system.md R228
  | clv
  -- CLD, 45_stack_flag_system.md R229
  | cld
  -- SED, 45_stack_flag_system.md R230
  | sed
  -- NOP, 45_stack_flag_system.md R231
  | nop
  -- BRK, 45_stack_flag_system.md R232
  | brk
  -- RTI, 45_stack_flag_system.md R233
  | rti
  deriving DecidableEq, Repr

/-- The mnemonic of an instruction (opcode_table.json). -/
def Instr.mnemonic : Instr → Mnemonic
  | .ldaImm _ | .ldaZp _ | .ldaZpx _ | .ldaAbs _ | .ldaAbx _ | .ldaAby _ | .ldaIzx _ | .ldaIzy _ => .lda
  | .ldxImm _ | .ldxZp _ | .ldxZpy _ | .ldxAbs _ | .ldxAby _ => .ldx
  | .ldyImm _ | .ldyZp _ | .ldyZpx _ | .ldyAbs _ | .ldyAbx _ => .ldy
  | .staZp _ | .staZpx _ | .staAbs _ | .staAbx _ | .staAby _ | .staIzx _ | .staIzy _ => .sta
  | .stxZp _ | .stxZpy _ | .stxAbs _ => .stx
  | .styZp _ | .styZpx _ | .styAbs _ => .sty
  | .tax => .tax
  | .tay => .tay
  | .txa => .txa
  | .tya => .tya
  | .tsx => .tsx
  | .txs => .txs
  | .adcImm _ | .adcZp _ | .adcZpx _ | .adcAbs _ | .adcAbx _ | .adcAby _ | .adcIzx _ | .adcIzy _ => .adc
  | .sbcImm _ | .sbcZp _ | .sbcZpx _ | .sbcAbs _ | .sbcAbx _ | .sbcAby _ | .sbcIzx _ | .sbcIzy _ => .sbc
  | .cmpImm _ | .cmpZp _ | .cmpZpx _ | .cmpAbs _ | .cmpAbx _ | .cmpAby _ | .cmpIzx _ | .cmpIzy _ => .cmp
  | .cpxImm _ | .cpxZp _ | .cpxAbs _ => .cpx
  | .cpyImm _ | .cpyZp _ | .cpyAbs _ => .cpy
  | .incZp _ | .incZpx _ | .incAbs _ | .incAbx _ => .inc
  | .inx => .inx
  | .iny => .iny
  | .decZp _ | .decZpx _ | .decAbs _ | .decAbx _ => .dec
  | .dex => .dex
  | .dey => .dey
  | .andImm _ | .andZp _ | .andZpx _ | .andAbs _ | .andAbx _ | .andAby _ | .andIzx _ | .andIzy _ => .and
  | .oraImm _ | .oraZp _ | .oraZpx _ | .oraAbs _ | .oraAbx _ | .oraAby _ | .oraIzx _ | .oraIzy _ => .ora
  | .eorImm _ | .eorZp _ | .eorZpx _ | .eorAbs _ | .eorAbx _ | .eorAby _ | .eorIzx _ | .eorIzy _ => .eor
  | .bitZp _ | .bitAbs _ => .bit
  | .aslAcc | .aslZp _ | .aslZpx _ | .aslAbs _ | .aslAbx _ => .asl
  | .lsrAcc | .lsrZp _ | .lsrZpx _ | .lsrAbs _ | .lsrAbx _ => .lsr
  | .rolAcc | .rolZp _ | .rolZpx _ | .rolAbs _ | .rolAbx _ => .rol
  | .rorAcc | .rorZp _ | .rorZpx _ | .rorAbs _ | .rorAbx _ => .ror
  | .bcc _ => .bcc
  | .bcs _ => .bcs
  | .beq _ => .beq
  | .bne _ => .bne
  | .bmi _ => .bmi
  | .bpl _ => .bpl
  | .bvc _ => .bvc
  | .bvs _ => .bvs
  | .jmpAbs _ | .jmpInd _ => .jmp
  | .jsr _ => .jsr
  | .rts => .rts
  | .pha => .pha
  | .pla => .pla
  | .php => .php
  | .plp => .plp
  | .clc => .clc
  | .sec => .sec
  | .cli => .cli
  | .sei => .sei
  | .clv => .clv
  | .cld => .cld
  | .sed => .sed
  | .nop => .nop
  | .brk => .brk
  | .rti => .rti

/-- The operand of an instruction (opcode_table.json's format and fields). -/
def Instr.operand : Instr → Operand
  | .tax | .tay | .txa | .tya | .tsx | .txs | .inx | .iny => .imp
  | .dex | .dey | .rts | .pha | .pla | .php | .plp | .clc => .imp
  | .sec | .cli | .sei | .clv | .cld | .sed | .nop | .brk => .imp
  | .rti => .imp
  | .aslAcc | .lsrAcc | .rolAcc | .rorAcc => .acc
  | .ldaImm v | .ldxImm v | .ldyImm v | .adcImm v | .sbcImm v | .cmpImm v | .cpxImm v | .cpyImm v => .imm v
  | .andImm v | .oraImm v | .eorImm v => .imm v
  | .ldaZp z | .ldxZp z | .ldyZp z | .staZp z | .stxZp z | .styZp z | .adcZp z | .sbcZp z => .mem (.zp z)
  | .cmpZp z | .cpxZp z | .cpyZp z | .incZp z | .decZp z | .andZp z | .oraZp z | .eorZp z => .mem (.zp z)
  | .bitZp z | .aslZp z | .lsrZp z | .rolZp z | .rorZp z => .mem (.zp z)
  | .ldaZpx z | .ldyZpx z | .staZpx z | .styZpx z | .adcZpx z | .sbcZpx z | .cmpZpx z | .incZpx z => .mem (.zpx z)
  | .decZpx z | .andZpx z | .oraZpx z | .eorZpx z | .aslZpx z | .lsrZpx z | .rolZpx z | .rorZpx z => .mem (.zpx z)
  | .ldxZpy z | .stxZpy z => .mem (.zpy z)
  | .ldaAbs w | .ldxAbs w | .ldyAbs w | .staAbs w | .stxAbs w | .styAbs w | .adcAbs w | .sbcAbs w => .mem (.abs w)
  | .cmpAbs w | .cpxAbs w | .cpyAbs w | .incAbs w | .decAbs w | .andAbs w | .oraAbs w | .eorAbs w => .mem (.abs w)
  | .bitAbs w | .aslAbs w | .lsrAbs w | .rolAbs w | .rorAbs w | .jmpAbs w | .jsr w => .mem (.abs w)
  | .ldaAbx w | .ldyAbx w | .staAbx w | .adcAbx w | .sbcAbx w | .cmpAbx w | .incAbx w | .decAbx w => .mem (.abx w)
  | .andAbx w | .oraAbx w | .eorAbx w | .aslAbx w | .lsrAbx w | .rolAbx w | .rorAbx w => .mem (.abx w)
  | .ldaAby w | .ldxAby w | .staAby w | .adcAby w | .sbcAby w | .cmpAby w | .andAby w | .oraAby w => .mem (.aby w)
  | .eorAby w => .mem (.aby w)
  | .jmpInd w => .ind w
  | .ldaIzx z | .staIzx z | .adcIzx z | .sbcIzx z | .cmpIzx z | .andIzx z | .oraIzx z | .eorIzx z => .mem (.izx z)
  | .ldaIzy z | .staIzy z | .adcIzy z | .sbcIzy z | .cmpIzy z | .andIzy z | .oraIzy z | .eorIzy z => .mem (.izy z)
  | .bcc d | .bcs d | .beq d | .bne d | .bmi d | .bpl d | .bvc d | .bvs d => .rel d

/-- The length of an instruction in bytes: its opcode byte and its operand bytes (30_encoding.md R80, R81). -/
def Instr.length (i : Instr) : Nat := 1 + i.operand.format.operandBytes

end Sys2Proof
end

