-- ==== Sys2Proof/Machine/Operands.lean ====
section
/-! DEFINITION. The operand resolvers (40_engine_addressing.md R104 to R117) after their operand bytes have been fetched:
`pc` already lies past the instruction (R124). -/

namespace Sys2Proof.Machine

/-- Where the high byte of the pointer at zero-page location `p` lies (40_engine_addressing.md R113). The OPEN parameter
is read only at `p = 0xFF`; everywhere else its two settings agree. -/
def zpPtrHighAddr (setting : ZpPtrWrap) (p : Byte) : Word :=
  if p = 0xFF#8 then
    match setting with
    | .wrap => 0x0000#16
    | .nowrap => 0x0100#16
  else zext16 (p + 1#8)

/-- `ZpPtrRead(p)` (40_engine_addressing.md R113). -/
def zpPtrRead (p : Byte) (st : State) : Except Fault Word := do
  let lo ← busLoad (zext16 p) st
  let hi ← busLoad (zpPtrHighAddr st.params.zpPtrWrap p) st
  pure (wordOf hi lo)

/-- The effective address of a memory operand (40_engine_addressing.md R105 to R110, R112, R114). -/
def effAddr (m : MemMode) (st : State) : Except Fault Word :=
  match m with
  | .zp z => .ok (zext16 z)
  | .zpx z => .ok (zext16 (z + st.x))
  | .zpy z => .ok (zext16 (z + st.y))
  | .abs w => .ok w
  | .abx w => .ok (w + zext16 st.x)
  | .aby w => .ok (w + zext16 st.y)
  | .izx z => zpPtrRead (z + st.x) st
  | .izy z => do
    let base ← zpPtrRead z st
    pure (base + zext16 st.y)

/-- The operand value `M` of an instruction that reads its operand: the immediate, or one load at the effective address
(40_engine_addressing.md R104, R119). -/
def readSource (src : Source) (st : State) : Except Fault Byte :=
  match src with
  | .imm v => .ok v
  | .mem m => do
    let ea ← effAddr m st
    busLoad ea st

/-- REL: the target of a branch, the already-advanced `pc` plus the signed displacement (40_engine_addressing.md R115). -/
def relTarget (d : Byte) (st : State) : Word := st.pc + sext16 d

/-- IND: the word stored at the pointer, its high byte at `ptr +16 1` (40_engine_addressing.md R111). -/
def indTarget (ptr : Word) (st : State) : Except Fault Word := loadWord ptr st

/-- An instruction that reads its operand and then writes registers only. -/
def withSource (src : Source) (effect : Byte → State → State) (st : State) : Host.Outcome State Fault Refusal :=
  match readSource src st with
  | .ok m => .next (effect m st)
  | .error f => .fault f

/-- An instruction that stores one byte and loads nothing at its target (40_engine_addressing.md R119). -/
def storeAt (m : MemMode) (v : Byte) (st : State) : Host.Outcome State Fault Refusal :=
  finish do
    let ea ← effAddr m st
    busStore ea v st

/-- A read-modify-write: one load, then one store at the same address, then the flags (20_memory.md R63;
43_logic_shift.md section 2). `f` maps the operand and `P` to the result and the new `P`. -/
def modifyAt (m : MemMode) (f : Byte → Byte → Byte × Byte) (st : State) : Host.Outcome State Fault Refusal :=
  finish do
    let ea ← effAddr m st
    let v ← busLoad ea st
    let st1 ← busStore ea (f v st.p).1 st
    pure (st1.setP (f v st.p).2)

/-- The accumulator form of a shift (40_engine_addressing.md R117). -/
def modifyA (f : Byte → Byte → Byte × Byte) (st : State) : Host.Outcome State Fault Refusal :=
  .next ((st.setA (f st.a st.p).1).setP (f st.a st.p).2)

end Sys2Proof.Machine
end

