-- ==== Sys2Proof/Machine/Arith.lean ====
section
/-! DEFINITION. Arithmetic, compares, increments and decrements (42_arithmetic_compare.md R160 to R170): one meaning for each row of
opcode_table.json. Each runs on a state whose `pc` lies past the instruction (40_engine_addressing.md R124). -/

namespace Sys2Proof.Machine

/-! ## Shared operations -/

/-- ADC (R160). -/
def opAdc (src : Source) (st : State) : Host.Outcome State Fault Refusal :=
  withSource src (fun m t => (t.setA (addWithCarry t.a m t.p).1).setP (addWithCarry t.a m t.p).2) st

/-- SBC (R161). -/
def opSbc (src : Source) (st : State) : Host.Outcome State Fault Refusal :=
  withSource src (fun m t => (t.setA (subWithCarry t.a m t.p).1).setP (subWithCarry t.a m t.p).2) st

/-- CMP (R162). -/
def opCmp (src : Source) (st : State) : Host.Outcome State Fault Refusal := withSource src (fun m t => t.setP (compareFlags t.a m t.p)) st

/-- CPX (R163). -/
def opCpx (src : Source) (st : State) : Host.Outcome State Fault Refusal := withSource src (fun m t => t.setP (compareFlags t.x m t.p)) st

/-- CPY (R164). -/
def opCpy (src : Source) (st : State) : Host.Outcome State Fault Refusal := withSource src (fun m t => t.setP (compareFlags t.y m t.p)) st

/-! ## ADC (R160) -/

/-- ADC 0x69 (IMM, R104). -/
def execAdcImm (v : Byte) (st : State) : Host.Outcome State Fault Refusal := opAdc (.imm v) st

/-- ADC 0x65 (ZP, R105). -/
def execAdcZp (z : Byte) (st : State) : Host.Outcome State Fault Refusal := opAdc (.mem (.zp z)) st

/-- ADC 0x75 (ZPX, R106). -/
def execAdcZpx (z : Byte) (st : State) : Host.Outcome State Fault Refusal := opAdc (.mem (.zpx z)) st

/-- ADC 0x6D (ABS, R108). -/
def execAdcAbs (w : Word) (st : State) : Host.Outcome State Fault Refusal := opAdc (.mem (.abs w)) st

/-- ADC 0x7D (ABX, R109). -/
def execAdcAbx (w : Word) (st : State) : Host.Outcome State Fault Refusal := opAdc (.mem (.abx w)) st

/-- ADC 0x79 (ABY, R110). -/
def execAdcAby (w : Word) (st : State) : Host.Outcome State Fault Refusal := opAdc (.mem (.aby w)) st

/-- ADC 0x61 (IZX, R112). -/
def execAdcIzx (z : Byte) (st : State) : Host.Outcome State Fault Refusal := opAdc (.mem (.izx z)) st

/-- ADC 0x71 (IZY, R114). -/
def execAdcIzy (z : Byte) (st : State) : Host.Outcome State Fault Refusal := opAdc (.mem (.izy z)) st

/-! ## SBC (R161) -/

/-- SBC 0xE9 (IMM, R104). -/
def execSbcImm (v : Byte) (st : State) : Host.Outcome State Fault Refusal := opSbc (.imm v) st

/-- SBC 0xE5 (ZP, R105). -/
def execSbcZp (z : Byte) (st : State) : Host.Outcome State Fault Refusal := opSbc (.mem (.zp z)) st

/-- SBC 0xF5 (ZPX, R106). -/
def execSbcZpx (z : Byte) (st : State) : Host.Outcome State Fault Refusal := opSbc (.mem (.zpx z)) st

/-- SBC 0xED (ABS, R108). -/
def execSbcAbs (w : Word) (st : State) : Host.Outcome State Fault Refusal := opSbc (.mem (.abs w)) st

/-- SBC 0xFD (ABX, R109). -/
def execSbcAbx (w : Word) (st : State) : Host.Outcome State Fault Refusal := opSbc (.mem (.abx w)) st

/-- SBC 0xF9 (ABY, R110). -/
def execSbcAby (w : Word) (st : State) : Host.Outcome State Fault Refusal := opSbc (.mem (.aby w)) st

/-- SBC 0xE1 (IZX, R112). -/
def execSbcIzx (z : Byte) (st : State) : Host.Outcome State Fault Refusal := opSbc (.mem (.izx z)) st

/-- SBC 0xF1 (IZY, R114). -/
def execSbcIzy (z : Byte) (st : State) : Host.Outcome State Fault Refusal := opSbc (.mem (.izy z)) st

/-! ## CMP (R162) -/

/-- CMP 0xC9 (IMM, R104). -/
def execCmpImm (v : Byte) (st : State) : Host.Outcome State Fault Refusal := opCmp (.imm v) st

/-- CMP 0xC5 (ZP, R105). -/
def execCmpZp (z : Byte) (st : State) : Host.Outcome State Fault Refusal := opCmp (.mem (.zp z)) st

/-- CMP 0xD5 (ZPX, R106). -/
def execCmpZpx (z : Byte) (st : State) : Host.Outcome State Fault Refusal := opCmp (.mem (.zpx z)) st

/-- CMP 0xCD (ABS, R108). -/
def execCmpAbs (w : Word) (st : State) : Host.Outcome State Fault Refusal := opCmp (.mem (.abs w)) st

/-- CMP 0xDD (ABX, R109). -/
def execCmpAbx (w : Word) (st : State) : Host.Outcome State Fault Refusal := opCmp (.mem (.abx w)) st

/-- CMP 0xD9 (ABY, R110). -/
def execCmpAby (w : Word) (st : State) : Host.Outcome State Fault Refusal := opCmp (.mem (.aby w)) st

/-- CMP 0xC1 (IZX, R112). -/
def execCmpIzx (z : Byte) (st : State) : Host.Outcome State Fault Refusal := opCmp (.mem (.izx z)) st

/-- CMP 0xD1 (IZY, R114). -/
def execCmpIzy (z : Byte) (st : State) : Host.Outcome State Fault Refusal := opCmp (.mem (.izy z)) st

/-! ## CPX (R163) -/

/-- CPX 0xE0 (IMM, R104). -/
def execCpxImm (v : Byte) (st : State) : Host.Outcome State Fault Refusal := opCpx (.imm v) st

/-- CPX 0xE4 (ZP, R105). -/
def execCpxZp (z : Byte) (st : State) : Host.Outcome State Fault Refusal := opCpx (.mem (.zp z)) st

/-- CPX 0xEC (ABS, R108). -/
def execCpxAbs (w : Word) (st : State) : Host.Outcome State Fault Refusal := opCpx (.mem (.abs w)) st

/-! ## CPY (R164) -/

/-- CPY 0xC0 (IMM, R104). -/
def execCpyImm (v : Byte) (st : State) : Host.Outcome State Fault Refusal := opCpy (.imm v) st

/-- CPY 0xC4 (ZP, R105). -/
def execCpyZp (z : Byte) (st : State) : Host.Outcome State Fault Refusal := opCpy (.mem (.zp z)) st

/-- CPY 0xCC (ABS, R108). -/
def execCpyAbs (w : Word) (st : State) : Host.Outcome State Fault Refusal := opCpy (.mem (.abs w)) st

/-! ## INC (R165) -/

/-- INC 0xE6 (ZP, R105). -/
def execIncZp (z : Byte) (st : State) : Host.Outcome State Fault Refusal := modifyAt (.zp z) incByte st

/-- INC 0xF6 (ZPX, R106). -/
def execIncZpx (z : Byte) (st : State) : Host.Outcome State Fault Refusal := modifyAt (.zpx z) incByte st

/-- INC 0xEE (ABS, R108). -/
def execIncAbs (w : Word) (st : State) : Host.Outcome State Fault Refusal := modifyAt (.abs w) incByte st

/-- INC 0xFE (ABX, R109). -/
def execIncAbx (w : Word) (st : State) : Host.Outcome State Fault Refusal := modifyAt (.abx w) incByte st

/-! ## INX (R166) -/

/-- INX 0xE8 (IMP, R116): `X <- X +8 1; SetZN(X)`. -/
def execInx (st : State) : Host.Outcome State Fault Refusal := .next (st.putX (st.x + 1#8))

/-! ## INY (R167) -/

/-- INY 0xC8 (IMP, R116): `Y <- Y +8 1; SetZN(Y)`. -/
def execIny (st : State) : Host.Outcome State Fault Refusal := .next (st.putY (st.y + 1#8))

/-! ## DEC (R168) -/

/-- DEC 0xC6 (ZP, R105). -/
def execDecZp (z : Byte) (st : State) : Host.Outcome State Fault Refusal := modifyAt (.zp z) decByte st

/-- DEC 0xD6 (ZPX, R106). -/
def execDecZpx (z : Byte) (st : State) : Host.Outcome State Fault Refusal := modifyAt (.zpx z) decByte st

/-- DEC 0xCE (ABS, R108). -/
def execDecAbs (w : Word) (st : State) : Host.Outcome State Fault Refusal := modifyAt (.abs w) decByte st

/-- DEC 0xDE (ABX, R109). -/
def execDecAbx (w : Word) (st : State) : Host.Outcome State Fault Refusal := modifyAt (.abx w) decByte st

/-! ## DEX (R169) -/

/-- DEX 0xCA (IMP, R116): `X <- X -8 1; SetZN(X)`. -/
def execDex (st : State) : Host.Outcome State Fault Refusal := .next (st.putX (st.x - 1#8))

/-! ## DEY (R170) -/

/-- DEY 0x88 (IMP, R116): `Y <- Y -8 1; SetZN(Y)`. -/
def execDey (st : State) : Host.Outcome State Fault Refusal := .next (st.putY (st.y - 1#8))

end Sys2Proof.Machine
end

