-- ==== Sys2Proof/Machine/Branch.lean ====
section
/-! DEFINITION. Branches, jumps, subroutine call and return (44_branch_jump.md R198 to R210): one meaning for each row of
opcode_table.json. Each runs on a state whose `pc` lies past the instruction (40_engine_addressing.md R124). -/

namespace Sys2Proof.Machine

/-! ## Shared operation -/

/-- The conditional branches: taken when flag `f` has value `b` (R198). The displacement has been fetched either way. -/
def branchOn (f : Flag) (b : Bool) (d : Byte) (st : State) : Host.Outcome State Fault Refusal :=
  .next (if getFlag f st.p = b then st.setPc (relTarget d st) else st)

/-! ## BCC (R200) -/

/-- BCC 0x90 (REL, R115): taken when C = 0. -/
def execBcc (d : Byte) (st : State) : Host.Outcome State Fault Refusal := branchOn .c false d st

/-! ## BCS (R201) -/

/-- BCS 0xB0 (REL, R115): taken when C = 1. -/
def execBcs (d : Byte) (st : State) : Host.Outcome State Fault Refusal := branchOn .c true d st

/-! ## BEQ (R202) -/

/-- BEQ 0xF0 (REL, R115): taken when Z = 1. -/
def execBeq (d : Byte) (st : State) : Host.Outcome State Fault Refusal := branchOn .z true d st

/-! ## BNE (R203) -/

/-- BNE 0xD0 (REL, R115): taken when Z = 0. -/
def execBne (d : Byte) (st : State) : Host.Outcome State Fault Refusal := branchOn .z false d st

/-! ## BMI (R204) -/

/-- BMI 0x30 (REL, R115): taken when N = 1. -/
def execBmi (d : Byte) (st : State) : Host.Outcome State Fault Refusal := branchOn .n true d st

/-! ## BPL (R205) -/

/-- BPL 0x10 (REL, R115): taken when N = 0. -/
def execBpl (d : Byte) (st : State) : Host.Outcome State Fault Refusal := branchOn .n false d st

/-! ## BVC (R206) -/

/-- BVC 0x50 (REL, R115): taken when V = 0. -/
def execBvc (d : Byte) (st : State) : Host.Outcome State Fault Refusal := branchOn .v false d st

/-! ## BVS (R207) -/

/-- BVS 0x70 (REL, R115): taken when V = 1. -/
def execBvs (d : Byte) (st : State) : Host.Outcome State Fault Refusal := branchOn .v true d st

/-! ## JMP (R208) -/

/-- JMP 0x4C (ABS, R108): `pc <- ea`. -/
def execJmpAbs (w : Word) (st : State) : Host.Outcome State Fault Refusal := .next (st.setPc w)

/-- JMP 0x6C (IND, R111): `pc <- ea`, the word stored at the operand address. -/
def execJmpInd (w : Word) (st : State) : Host.Outcome State Fault Refusal :=
  finish do
    let ea ← indTarget w st
    pure (st.setPc ea)

/-! ## JSR (R209) -/

/-- JSR 0x20 (ABS, R108): `Push16(pc -16 1); pc <- ea`: both operand bytes are fetched before anything is pushed. -/
def execJsr (w : Word) (st : State) : Host.Outcome State Fault Refusal :=
  finish do
    let st1 ← push16 (st.pc - 1#16) st
    pure (st1.setPc w)

/-! ## RTS (R210) -/

/-- RTS 0x60 (IMP, R116): `w <- Pull16(); pc <- w +16 1`. -/
def execRts (st : State) : Host.Outcome State Fault Refusal :=
  finish do
    let (w, st1) ← pull16 st
    pure (st1.setPc (w + 1#16))

end Sys2Proof.Machine
end

