-- ==== Sys2Proof/Machine/LoadStore.lean ====
section
/-! DEFINITION. Loads, stores and register transfers (41_load_store_transfer.md R140 to R151): one meaning for each row of
opcode_table.json. Each runs on a state whose `pc` lies past the instruction (40_engine_addressing.md R124). -/

namespace Sys2Proof.Machine

/-! ## Shared operations -/

/-- LDA: `A <- M; SetZN(A)` (R140). -/
def opLda (src : Source) (st : State) : Host.Outcome State Fault Refusal := withSource src (fun m t => t.putA m) st

/-- LDX: `X <- M; SetZN(X)` (R141). -/
def opLdx (src : Source) (st : State) : Host.Outcome State Fault Refusal := withSource src (fun m t => t.putX m) st

/-- LDY: `Y <- M; SetZN(Y)` (R142). -/
def opLdy (src : Source) (st : State) : Host.Outcome State Fault Refusal := withSource src (fun m t => t.putY m) st

/-! ## LDA (R140) -/

/-- LDA 0xA9 (IMM, R104). -/
def execLdaImm (v : Byte) (st : State) : Host.Outcome State Fault Refusal := opLda (.imm v) st

/-- LDA 0xA5 (ZP, R105). -/
def execLdaZp (z : Byte) (st : State) : Host.Outcome State Fault Refusal := opLda (.mem (.zp z)) st

/-- LDA 0xB5 (ZPX, R106). -/
def execLdaZpx (z : Byte) (st : State) : Host.Outcome State Fault Refusal := opLda (.mem (.zpx z)) st

/-- LDA 0xAD (ABS, R108). -/
def execLdaAbs (w : Word) (st : State) : Host.Outcome State Fault Refusal := opLda (.mem (.abs w)) st

/-- LDA 0xBD (ABX, R109). -/
def execLdaAbx (w : Word) (st : State) : Host.Outcome State Fault Refusal := opLda (.mem (.abx w)) st

/-- LDA 0xB9 (ABY, R110). -/
def execLdaAby (w : Word) (st : State) : Host.Outcome State Fault Refusal := opLda (.mem (.aby w)) st

/-- LDA 0xA1 (IZX, R112). -/
def execLdaIzx (z : Byte) (st : State) : Host.Outcome State Fault Refusal := opLda (.mem (.izx z)) st

/-- LDA 0xB1 (IZY, R114). -/
def execLdaIzy (z : Byte) (st : State) : Host.Outcome State Fault Refusal := opLda (.mem (.izy z)) st

/-! ## LDX (R141) -/

/-- LDX 0xA2 (IMM, R104). -/
def execLdxImm (v : Byte) (st : State) : Host.Outcome State Fault Refusal := opLdx (.imm v) st

/-- LDX 0xA6 (ZP, R105). -/
def execLdxZp (z : Byte) (st : State) : Host.Outcome State Fault Refusal := opLdx (.mem (.zp z)) st

/-- LDX 0xB6 (ZPY, R107). -/
def execLdxZpy (z : Byte) (st : State) : Host.Outcome State Fault Refusal := opLdx (.mem (.zpy z)) st

/-- LDX 0xAE (ABS, R108). -/
def execLdxAbs (w : Word) (st : State) : Host.Outcome State Fault Refusal := opLdx (.mem (.abs w)) st

/-- LDX 0xBE (ABY, R110). -/
def execLdxAby (w : Word) (st : State) : Host.Outcome State Fault Refusal := opLdx (.mem (.aby w)) st

/-! ## LDY (R142) -/

/-- LDY 0xA0 (IMM, R104). -/
def execLdyImm (v : Byte) (st : State) : Host.Outcome State Fault Refusal := opLdy (.imm v) st

/-- LDY 0xA4 (ZP, R105). -/
def execLdyZp (z : Byte) (st : State) : Host.Outcome State Fault Refusal := opLdy (.mem (.zp z)) st

/-- LDY 0xB4 (ZPX, R106). -/
def execLdyZpx (z : Byte) (st : State) : Host.Outcome State Fault Refusal := opLdy (.mem (.zpx z)) st

/-- LDY 0xAC (ABS, R108). -/
def execLdyAbs (w : Word) (st : State) : Host.Outcome State Fault Refusal := opLdy (.mem (.abs w)) st

/-- LDY 0xBC (ABX, R109). -/
def execLdyAbx (w : Word) (st : State) : Host.Outcome State Fault Refusal := opLdy (.mem (.abx w)) st

/-! ## STA (R143) -/

/-- STA 0x85 (ZP, R105): `MemWrite(ea, 1, A)`. -/
def execStaZp (z : Byte) (st : State) : Host.Outcome State Fault Refusal := storeAt (.zp z) st.a st

/-- STA 0x95 (ZPX, R106): `MemWrite(ea, 1, A)`. -/
def execStaZpx (z : Byte) (st : State) : Host.Outcome State Fault Refusal := storeAt (.zpx z) st.a st

/-- STA 0x8D (ABS, R108): `MemWrite(ea, 1, A)`. -/
def execStaAbs (w : Word) (st : State) : Host.Outcome State Fault Refusal := storeAt (.abs w) st.a st

/-- STA 0x9D (ABX, R109): `MemWrite(ea, 1, A)`. -/
def execStaAbx (w : Word) (st : State) : Host.Outcome State Fault Refusal := storeAt (.abx w) st.a st

/-- STA 0x99 (ABY, R110): `MemWrite(ea, 1, A)`. -/
def execStaAby (w : Word) (st : State) : Host.Outcome State Fault Refusal := storeAt (.aby w) st.a st

/-- STA 0x81 (IZX, R112): `MemWrite(ea, 1, A)`. -/
def execStaIzx (z : Byte) (st : State) : Host.Outcome State Fault Refusal := storeAt (.izx z) st.a st

/-- STA 0x91 (IZY, R114): `MemWrite(ea, 1, A)`. -/
def execStaIzy (z : Byte) (st : State) : Host.Outcome State Fault Refusal := storeAt (.izy z) st.a st

/-! ## STX (R144) -/

/-- STX 0x86 (ZP, R105): `MemWrite(ea, 1, X)`. -/
def execStxZp (z : Byte) (st : State) : Host.Outcome State Fault Refusal := storeAt (.zp z) st.x st

/-- STX 0x96 (ZPY, R107): `MemWrite(ea, 1, X)`. -/
def execStxZpy (z : Byte) (st : State) : Host.Outcome State Fault Refusal := storeAt (.zpy z) st.x st

/-- STX 0x8E (ABS, R108): `MemWrite(ea, 1, X)`. -/
def execStxAbs (w : Word) (st : State) : Host.Outcome State Fault Refusal := storeAt (.abs w) st.x st

/-! ## STY (R145) -/

/-- STY 0x84 (ZP, R105): `MemWrite(ea, 1, Y)`. -/
def execStyZp (z : Byte) (st : State) : Host.Outcome State Fault Refusal := storeAt (.zp z) st.y st

/-- STY 0x94 (ZPX, R106): `MemWrite(ea, 1, Y)`. -/
def execStyZpx (z : Byte) (st : State) : Host.Outcome State Fault Refusal := storeAt (.zpx z) st.y st

/-- STY 0x8C (ABS, R108): `MemWrite(ea, 1, Y)`. -/
def execStyAbs (w : Word) (st : State) : Host.Outcome State Fault Refusal := storeAt (.abs w) st.y st

/-! ## TAX (R146) -/

/-- TAX 0xAA (IMP, R116): `X <- A; SetZN(X)`. -/
def execTax (st : State) : Host.Outcome State Fault Refusal := .next (st.putX st.a)

/-! ## TAY (R147) -/

/-- TAY 0xA8 (IMP, R116): `Y <- A; SetZN(Y)`. -/
def execTay (st : State) : Host.Outcome State Fault Refusal := .next (st.putY st.a)

/-! ## TXA (R148) -/

/-- TXA 0x8A (IMP, R116): `A <- X; SetZN(A)`. -/
def execTxa (st : State) : Host.Outcome State Fault Refusal := .next (st.putA st.x)

/-! ## TYA (R149) -/

/-- TYA 0x98 (IMP, R116): `A <- Y; SetZN(A)`. -/
def execTya (st : State) : Host.Outcome State Fault Refusal := .next (st.putA st.y)

/-! ## TSX (R150) -/

/-- TSX 0xBA (IMP, R116): `X <- S; SetZN(X)`. -/
def execTsx (st : State) : Host.Outcome State Fault Refusal := .next (st.putX st.s)

/-! ## TXS (R151) -/

/-- TXS 0x9A (IMP, R116): `S <- X`, no flag. -/
def execTxs (st : State) : Host.Outcome State Fault Refusal := .next (st.setS st.x)

end Sys2Proof.Machine
end

