-- ==== Sys2Proof/Machine/Logic.lean ====
section
/-! DEFINITION. Logic, bit test, shifts and rotates (43_logic_shift.md R180 to R187): one meaning for each row of
opcode_table.json. Each runs on a state whose `pc` lies past the instruction (40_engine_addressing.md R124). -/

namespace Sys2Proof.Machine

/-! ## Shared operations -/

/-- AND: `A <- A & M; SetZN(A)` (R180). -/
def opAnd (src : Source) (st : State) : Host.Outcome State Fault Refusal := withSource src (fun m t => t.putA (t.a &&& m)) st

/-- ORA: `A <- A | M; SetZN(A)` (R181). -/
def opOra (src : Source) (st : State) : Host.Outcome State Fault Refusal := withSource src (fun m t => t.putA (t.a ||| m)) st

/-- EOR: `A <- A ^ M; SetZN(A)` (R182). -/
def opEor (src : Source) (st : State) : Host.Outcome State Fault Refusal := withSource src (fun m t => t.putA (t.a ^^^ m)) st

/-- BIT: flags only (R183). -/
def opBit (src : Source) (st : State) : Host.Outcome State Fault Refusal := withSource src (fun m t => t.setP (bitFlags t.a m t.p)) st

/-! ## AND (R180) -/

/-- AND 0x29 (IMM, R104). -/
def execAndImm (v : Byte) (st : State) : Host.Outcome State Fault Refusal := opAnd (.imm v) st

/-- AND 0x25 (ZP, R105). -/
def execAndZp (z : Byte) (st : State) : Host.Outcome State Fault Refusal := opAnd (.mem (.zp z)) st

/-- AND 0x35 (ZPX, R106). -/
def execAndZpx (z : Byte) (st : State) : Host.Outcome State Fault Refusal := opAnd (.mem (.zpx z)) st

/-- AND 0x2D (ABS, R108). -/
def execAndAbs (w : Word) (st : State) : Host.Outcome State Fault Refusal := opAnd (.mem (.abs w)) st

/-- AND 0x3D (ABX, R109). -/
def execAndAbx (w : Word) (st : State) : Host.Outcome State Fault Refusal := opAnd (.mem (.abx w)) st

/-- AND 0x39 (ABY, R110). -/
def execAndAby (w : Word) (st : State) : Host.Outcome State Fault Refusal := opAnd (.mem (.aby w)) st

/-- AND 0x21 (IZX, R112). -/
def execAndIzx (z : Byte) (st : State) : Host.Outcome State Fault Refusal := opAnd (.mem (.izx z)) st

/-- AND 0x31 (IZY, R114). -/
def execAndIzy (z : Byte) (st : State) : Host.Outcome State Fault Refusal := opAnd (.mem (.izy z)) st

/-! ## ORA (R181) -/

/-- ORA 0x09 (IMM, R104). -/
def execOraImm (v : Byte) (st : State) : Host.Outcome State Fault Refusal := opOra (.imm v) st

/-- ORA 0x05 (ZP, R105). -/
def execOraZp (z : Byte) (st : State) : Host.Outcome State Fault Refusal := opOra (.mem (.zp z)) st

/-- ORA 0x15 (ZPX, R106). -/
def execOraZpx (z : Byte) (st : State) : Host.Outcome State Fault Refusal := opOra (.mem (.zpx z)) st

/-- ORA 0x0D (ABS, R108). -/
def execOraAbs (w : Word) (st : State) : Host.Outcome State Fault Refusal := opOra (.mem (.abs w)) st

/-- ORA 0x1D (ABX, R109). -/
def execOraAbx (w : Word) (st : State) : Host.Outcome State Fault Refusal := opOra (.mem (.abx w)) st

/-- ORA 0x19 (ABY, R110). -/
def execOraAby (w : Word) (st : State) : Host.Outcome State Fault Refusal := opOra (.mem (.aby w)) st

/-- ORA 0x01 (IZX, R112). -/
def execOraIzx (z : Byte) (st : State) : Host.Outcome State Fault Refusal := opOra (.mem (.izx z)) st

/-- ORA 0x11 (IZY, R114). -/
def execOraIzy (z : Byte) (st : State) : Host.Outcome State Fault Refusal := opOra (.mem (.izy z)) st

/-! ## EOR (R182) -/

/-- EOR 0x49 (IMM, R104). -/
def execEorImm (v : Byte) (st : State) : Host.Outcome State Fault Refusal := opEor (.imm v) st

/-- EOR 0x45 (ZP, R105). -/
def execEorZp (z : Byte) (st : State) : Host.Outcome State Fault Refusal := opEor (.mem (.zp z)) st

/-- EOR 0x55 (ZPX, R106). -/
def execEorZpx (z : Byte) (st : State) : Host.Outcome State Fault Refusal := opEor (.mem (.zpx z)) st

/-- EOR 0x4D (ABS, R108). -/
def execEorAbs (w : Word) (st : State) : Host.Outcome State Fault Refusal := opEor (.mem (.abs w)) st

/-- EOR 0x5D (ABX, R109). -/
def execEorAbx (w : Word) (st : State) : Host.Outcome State Fault Refusal := opEor (.mem (.abx w)) st

/-- EOR 0x59 (ABY, R110). -/
def execEorAby (w : Word) (st : State) : Host.Outcome State Fault Refusal := opEor (.mem (.aby w)) st

/-- EOR 0x41 (IZX, R112). -/
def execEorIzx (z : Byte) (st : State) : Host.Outcome State Fault Refusal := opEor (.mem (.izx z)) st

/-- EOR 0x51 (IZY, R114). -/
def execEorIzy (z : Byte) (st : State) : Host.Outcome State Fault Refusal := opEor (.mem (.izy z)) st

/-! ## BIT (R183) -/

/-- BIT 0x24 (ZP, R105). -/
def execBitZp (z : Byte) (st : State) : Host.Outcome State Fault Refusal := opBit (.mem (.zp z)) st

/-- BIT 0x2C (ABS, R108). -/
def execBitAbs (w : Word) (st : State) : Host.Outcome State Fault Refusal := opBit (.mem (.abs w)) st

/-! ## ASL (R184) -/

/-- ASL 0x0A (ACC, R117). -/
def execAslAcc (st : State) : Host.Outcome State Fault Refusal := modifyA aslByte st

/-- ASL 0x06 (ZP, R105). -/
def execAslZp (z : Byte) (st : State) : Host.Outcome State Fault Refusal := modifyAt (.zp z) aslByte st

/-- ASL 0x16 (ZPX, R106). -/
def execAslZpx (z : Byte) (st : State) : Host.Outcome State Fault Refusal := modifyAt (.zpx z) aslByte st

/-- ASL 0x0E (ABS, R108). -/
def execAslAbs (w : Word) (st : State) : Host.Outcome State Fault Refusal := modifyAt (.abs w) aslByte st

/-- ASL 0x1E (ABX, R109). -/
def execAslAbx (w : Word) (st : State) : Host.Outcome State Fault Refusal := modifyAt (.abx w) aslByte st

/-! ## LSR (R185) -/

/-- LSR 0x4A (ACC, R117). -/
def execLsrAcc (st : State) : Host.Outcome State Fault Refusal := modifyA lsrByte st

/-- LSR 0x46 (ZP, R105). -/
def execLsrZp (z : Byte) (st : State) : Host.Outcome State Fault Refusal := modifyAt (.zp z) lsrByte st

/-- LSR 0x56 (ZPX, R106). -/
def execLsrZpx (z : Byte) (st : State) : Host.Outcome State Fault Refusal := modifyAt (.zpx z) lsrByte st

/-- LSR 0x4E (ABS, R108). -/
def execLsrAbs (w : Word) (st : State) : Host.Outcome State Fault Refusal := modifyAt (.abs w) lsrByte st

/-- LSR 0x5E (ABX, R109). -/
def execLsrAbx (w : Word) (st : State) : Host.Outcome State Fault Refusal := modifyAt (.abx w) lsrByte st

/-! ## ROL (R186) -/

/-- ROL 0x2A (ACC, R117). -/
def execRolAcc (st : State) : Host.Outcome State Fault Refusal := modifyA rolByte st

/-- ROL 0x26 (ZP, R105). -/
def execRolZp (z : Byte) (st : State) : Host.Outcome State Fault Refusal := modifyAt (.zp z) rolByte st

/-- ROL 0x36 (ZPX, R106). -/
def execRolZpx (z : Byte) (st : State) : Host.Outcome State Fault Refusal := modifyAt (.zpx z) rolByte st

/-- ROL 0x2E (ABS, R108). -/
def execRolAbs (w : Word) (st : State) : Host.Outcome State Fault Refusal := modifyAt (.abs w) rolByte st

/-- ROL 0x3E (ABX, R109). -/
def execRolAbx (w : Word) (st : State) : Host.Outcome State Fault Refusal := modifyAt (.abx w) rolByte st

/-! ## ROR (R187) -/

/-- ROR 0x6A (ACC, R117). -/
def execRorAcc (st : State) : Host.Outcome State Fault Refusal := modifyA rorByte st

/-- ROR 0x66 (ZP, R105). -/
def execRorZp (z : Byte) (st : State) : Host.Outcome State Fault Refusal := modifyAt (.zp z) rorByte st

/-- ROR 0x76 (ZPX, R106). -/
def execRorZpx (z : Byte) (st : State) : Host.Outcome State Fault Refusal := modifyAt (.zpx z) rorByte st

/-- ROR 0x6E (ABS, R108). -/
def execRorAbs (w : Word) (st : State) : Host.Outcome State Fault Refusal := modifyAt (.abs w) rorByte st

/-- ROR 0x7E (ABX, R109). -/
def execRorAbx (w : Word) (st : State) : Host.Outcome State Fault Refusal := modifyAt (.abx w) rorByte st

end Sys2Proof.Machine
end

