-- ==== Sys2Proof/Machine/StackFlag.lean ====
section
/-! DEFINITION. Stack, flag and system instructions (45_stack_flag_system.md R220 to R233): one meaning for each row of
opcode_table.json. Each runs on a state whose `pc` lies past the instruction (40_engine_addressing.md R124). -/

namespace Sys2Proof.Machine

/-! ## PHA (R220) -/

/-- PHA 0x48 (IMP, R116): `Push8(A)`. -/
def execPha (st : State) : Host.Outcome State Fault Refusal := finish (push8 st.a st)

/-! ## PLA (R221) -/

/-- PLA 0x68 (IMP, R116): `A <- Pull8(); SetZN(A)`. -/
def execPla (st : State) : Host.Outcome State Fault Refusal :=
  finish do
    let (v, st1) ← pull8 st
    pure (st1.putA v)

/-! ## PHP (R222) -/

/-- PHP 0x08 (IMP, R116): `Push8(P)`, all eight bits as they are. -/
def execPhp (st : State) : Host.Outcome State Fault Refusal := finish (push8 st.p st)

/-! ## PLP (R223) -/

/-- PLP 0x28 (IMP, R116): `P <- Pull8()`, all eight bits. -/
def execPlp (st : State) : Host.Outcome State Fault Refusal :=
  finish do
    let (v, st1) ← pull8 st
    pure (st1.setP v)

/-! ## CLC (R224) -/

/-- CLC 0x18 (IMP, R116): `P.C <- 0`. -/
def execClc (st : State) : Host.Outcome State Fault Refusal := .next (st.putFlag .c false)

/-! ## SEC (R225) -/

/-- SEC 0x38 (IMP, R116): `P.C <- 1`. -/
def execSec (st : State) : Host.Outcome State Fault Refusal := .next (st.putFlag .c true)

/-! ## CLI (R226) -/

/-- CLI 0x58 (IMP, R116): `P.I <- 0`. -/
def execCli (st : State) : Host.Outcome State Fault Refusal := .next (st.putFlag .i false)

/-! ## SEI (R227) -/

/-- SEI 0x78 (IMP, R116): `P.I <- 1`. -/
def execSei (st : State) : Host.Outcome State Fault Refusal := .next (st.putFlag .i true)

/-! ## CLV (R228) -/

/-- CLV 0xB8 (IMP, R116): `P.V <- 0`. -/
def execClv (st : State) : Host.Outcome State Fault Refusal := .next (st.putFlag .v false)

/-! ## CLD (R229) -/

/-- CLD 0xD8 (IMP, R116): `P.D <- 0`. -/
def execCld (st : State) : Host.Outcome State Fault Refusal := .next (st.putFlag .d false)

/-! ## SED (R230) -/

/-- SED 0xF8 (IMP, R116): `P.D <- 1`. -/
def execSed (st : State) : Host.Outcome State Fault Refusal := .next (st.putFlag .d true)

/-! ## NOP (R231) -/

/-- NOP 0xEA (IMP, R116): nothing. -/
def execNop (st : State) : Host.Outcome State Fault Refusal := .next st

/-! ## BRK (R232) -/

/-- BRK 0x00 (IMP, R116): the trap entry. -/
def execBrk (st : State) : Host.Outcome State Fault Refusal := finish (enterTrap st)

/-! ## RTI (R233) -/

/-- RTI 0x40 (IMP, R116): the trap return. -/
def execRti (st : State) : Host.Outcome State Fault Refusal := finish (returnFromTrap st)

end Sys2Proof.Machine
end

