-- ==== Sys2Proof/Machine/Dispatch.lean ====
section
/-! DEFINITION. Which meaning each instruction has: `Execute(mne, fmt, opd)` of 40_engine_addressing.md R100. The state it
takes has `pc` past the instruction (R124; log entry 9). -/

namespace Sys2Proof.Machine

def exec (i : Instr) (s : State) : Host.Outcome State Fault Refusal :=
  match i with
  -- LDA, 41_load_store_transfer.md R140
  | .ldaImm v => Sys2Proof.Machine.execLdaImm v s
  | .ldaZp z => Sys2Proof.Machine.execLdaZp z s
  | .ldaZpx z => Sys2Proof.Machine.execLdaZpx z s
  | .ldaAbs w => Sys2Proof.Machine.execLdaAbs w s
  | .ldaAbx w => Sys2Proof.Machine.execLdaAbx w s
  | .ldaAby w => Sys2Proof.Machine.execLdaAby w s
  | .ldaIzx z => Sys2Proof.Machine.execLdaIzx z s
  | .ldaIzy z => Sys2Proof.Machine.execLdaIzy z s
  -- LDX, 41_load_store_transfer.md R141
  | .ldxImm v => Sys2Proof.Machine.execLdxImm v s
  | .ldxZp z => Sys2Proof.Machine.execLdxZp z s
  | .ldxZpy z => Sys2Proof.Machine.execLdxZpy z s
  | .ldxAbs w => Sys2Proof.Machine.execLdxAbs w s
  | .ldxAby w => Sys2Proof.Machine.execLdxAby w s
  -- LDY, 41_load_store_transfer.md R142
  | .ldyImm v => Sys2Proof.Machine.execLdyImm v s
  | .ldyZp z => Sys2Proof.Machine.execLdyZp z s
  | .ldyZpx z => Sys2Proof.Machine.execLdyZpx z s
  | .ldyAbs w => Sys2Proof.Machine.execLdyAbs w s
  | .ldyAbx w => Sys2Proof.Machine.execLdyAbx w s
  -- STA, 41_load_store_transfer.md R143
  | .staZp z => Sys2Proof.Machine.execStaZp z s
  | .staZpx z => Sys2Proof.Machine.execStaZpx z s
  | .staAbs w => Sys2Proof.Machine.execStaAbs w s
  | .staAbx w => Sys2Proof.Machine.execStaAbx w s
  | .staAby w => Sys2Proof.Machine.execStaAby w s
  | .staIzx z => Sys2Proof.Machine.execStaIzx z s
  | .staIzy z => Sys2Proof.Machine.execStaIzy z s
  -- STX, 41_load_store_transfer.md R144
  | .stxZp z => Sys2Proof.Machine.execStxZp z s
  | .stxZpy z => Sys2Proof.Machine.execStxZpy z s
  | .stxAbs w => Sys2Proof.Machine.execStxAbs w s
  -- STY, 41_load_store_transfer.md R145
  | .styZp z => Sys2Proof.Machine.execStyZp z s
  | .styZpx z => Sys2Proof.Machine.execStyZpx z s
  | .styAbs w => Sys2Proof.Machine.execStyAbs w s
  -- TAX, 41_load_store_transfer.md R146
  | .tax => Sys2Proof.Machine.execTax s
  -- TAY, 41_load_store_transfer.md R147
  | .tay => Sys2Proof.Machine.execTay s
  -- TXA, 41_load_store_transfer.md R148
  | .txa => Sys2Proof.Machine.execTxa s
  -- TYA, 41_load_store_transfer.md R149
  | .tya => Sys2Proof.Machine.execTya s
  -- TSX, 41_load_store_transfer.md R150
  | .tsx => Sys2Proof.Machine.execTsx s
  -- TXS, 41_load_store_transfer.md R151
  | .txs => Sys2Proof.Machine.execTxs s
  -- ADC, 42_arithmetic_compare.md R160
  | .adcImm v => Sys2Proof.Machine.execAdcImm v s
  | .adcZp z => Sys2Proof.Machine.execAdcZp z s
  | .adcZpx z => Sys2Proof.Machine.execAdcZpx z s
  | .adcAbs w => Sys2Proof.Machine.execAdcAbs w s
  | .adcAbx w => Sys2Proof.Machine.execAdcAbx w s
  | .adcAby w => Sys2Proof.Machine.execAdcAby w s
  | .adcIzx z => Sys2Proof.Machine.execAdcIzx z s
  | .adcIzy z => Sys2Proof.Machine.execAdcIzy z s
  -- SBC, 42_arithmetic_compare.md R161
  | .sbcImm v => Sys2Proof.Machine.execSbcImm v s
  | .sbcZp z => Sys2Proof.Machine.execSbcZp z s
  | .sbcZpx z => Sys2Proof.Machine.execSbcZpx z s
  | .sbcAbs w => Sys2Proof.Machine.execSbcAbs w s
  | .sbcAbx w => Sys2Proof.Machine.execSbcAbx w s
  | .sbcAby w => Sys2Proof.Machine.execSbcAby w s
  | .sbcIzx z => Sys2Proof.Machine.execSbcIzx z s
  | .sbcIzy z => Sys2Proof.Machine.execSbcIzy z s
  -- CMP, 42_arithmetic_compare.md R162
  | .cmpImm v => Sys2Proof.Machine.execCmpImm v s
  | .cmpZp z => Sys2Proof.Machine.execCmpZp z s
  | .cmpZpx z => Sys2Proof.Machine.execCmpZpx z s
  | .cmpAbs w => Sys2Proof.Machine.execCmpAbs w s
  | .cmpAbx w => Sys2Proof.Machine.execCmpAbx w s
  | .cmpAby w => Sys2Proof.Machine.execCmpAby w s
  | .cmpIzx z => Sys2Proof.Machine.execCmpIzx z s
  | .cmpIzy z => Sys2Proof.Machine.execCmpIzy z s
  -- CPX, 42_arithmetic_compare.md R163
  | .cpxImm v => Sys2Proof.Machine.execCpxImm v s
  | .cpxZp z => Sys2Proof.Machine.execCpxZp z s
  | .cpxAbs w => Sys2Proof.Machine.execCpxAbs w s
  -- CPY, 42_arithmetic_compare.md R164
  | .cpyImm v => Sys2Proof.Machine.execCpyImm v s
  | .cpyZp z => Sys2Proof.Machine.execCpyZp z s
  | .cpyAbs w => Sys2Proof.Machine.execCpyAbs w s
  -- INC, 42_arithmetic_compare.md R165
  | .incZp z => Sys2Proof.Machine.execIncZp z s
  | .incZpx z => Sys2Proof.Machine.execIncZpx z s
  | .incAbs w => Sys2Proof.Machine.execIncAbs w s
  | .incAbx w => Sys2Proof.Machine.execIncAbx w s
  -- INX, 42_arithmetic_compare.md R166
  | .inx => Sys2Proof.Machine.execInx s
  -- INY, 42_arithmetic_compare.md R167
  | .iny => Sys2Proof.Machine.execIny s
  -- DEC, 42_arithmetic_compare.md R168
  | .decZp z => Sys2Proof.Machine.execDecZp z s
  | .decZpx z => Sys2Proof.Machine.execDecZpx z s
  | .decAbs w => Sys2Proof.Machine.execDecAbs w s
  | .decAbx w => Sys2Proof.Machine.execDecAbx w s
  -- DEX, 42_arithmetic_compare.md R169
  | .dex => Sys2Proof.Machine.execDex s
  -- DEY, 42_arithmetic_compare.md R170
  | .dey => Sys2Proof.Machine.execDey s
  -- AND, 43_logic_shift.md R180
  | .andImm v => Sys2Proof.Machine.execAndImm v s
  | .andZp z => Sys2Proof.Machine.execAndZp z s
  | .andZpx z => Sys2Proof.Machine.execAndZpx z s
  | .andAbs w => Sys2Proof.Machine.execAndAbs w s
  | .andAbx w => Sys2Proof.Machine.execAndAbx w s
  | .andAby w => Sys2Proof.Machine.execAndAby w s
  | .andIzx z => Sys2Proof.Machine.execAndIzx z s
  | .andIzy z => Sys2Proof.Machine.execAndIzy z s
  -- ORA, 43_logic_shift.md R181
  | .oraImm v => Sys2Proof.Machine.execOraImm v s
  | .oraZp z => Sys2Proof.Machine.execOraZp z s
  | .oraZpx z => Sys2Proof.Machine.execOraZpx z s
  | .oraAbs w => Sys2Proof.Machine.execOraAbs w s
  | .oraAbx w => Sys2Proof.Machine.execOraAbx w s
  | .oraAby w => Sys2Proof.Machine.execOraAby w s
  | .oraIzx z => Sys2Proof.Machine.execOraIzx z s
  | .oraIzy z => Sys2Proof.Machine.execOraIzy z s
  -- EOR, 43_logic_shift.md R182
  | .eorImm v => Sys2Proof.Machine.execEorImm v s
  | .eorZp z => Sys2Proof.Machine.execEorZp z s
  | .eorZpx z => Sys2Proof.Machine.execEorZpx z s
  | .eorAbs w => Sys2Proof.Machine.execEorAbs w s
  | .eorAbx w => Sys2Proof.Machine.execEorAbx w s
  | .eorAby w => Sys2Proof.Machine.execEorAby w s
  | .eorIzx z => Sys2Proof.Machine.execEorIzx z s
  | .eorIzy z => Sys2Proof.Machine.execEorIzy z s
  -- BIT, 43_logic_shift.md R183
  | .bitZp z => Sys2Proof.Machine.execBitZp z s
  | .bitAbs w => Sys2Proof.Machine.execBitAbs w s
  -- ASL, 43_logic_shift.md R184
  | .aslAcc => Sys2Proof.Machine.execAslAcc s
  | .aslZp z => Sys2Proof.Machine.execAslZp z s
  | .aslZpx z => Sys2Proof.Machine.execAslZpx z s
  | .aslAbs w => Sys2Proof.Machine.execAslAbs w s
  | .aslAbx w => Sys2Proof.Machine.execAslAbx w s
  -- LSR, 43_logic_shift.md R185
  | .lsrAcc => Sys2Proof.Machine.execLsrAcc s
  | .lsrZp z => Sys2Proof.Machine.execLsrZp z s
  | .lsrZpx z => Sys2Proof.Machine.execLsrZpx z s
  | .lsrAbs w => Sys2Proof.Machine.execLsrAbs w s
  | .lsrAbx w => Sys2Proof.Machine.execLsrAbx w s
  -- ROL, 43_logic_shift.md R186
  | .rolAcc => Sys2Proof.Machine.execRolAcc s
  | .rolZp z => Sys2Proof.Machine.execRolZp z s
  | .rolZpx z => Sys2Proof.Machine.execRolZpx z s
  | .rolAbs w => Sys2Proof.Machine.execRolAbs w s
  | .rolAbx w => Sys2Proof.Machine.execRolAbx w s
  -- ROR, 43_logic_shift.md R187
  | .rorAcc => Sys2Proof.Machine.execRorAcc s
  | .rorZp z => Sys2Proof.Machine.execRorZp z s
  | .rorZpx z => Sys2Proof.Machine.execRorZpx z s
  | .rorAbs w => Sys2Proof.Machine.execRorAbs w s
  | .rorAbx w => Sys2Proof.Machine.execRorAbx w s
  -- BCC, 44_branch_jump.md R200
  | .bcc d => Sys2Proof.Machine.execBcc d s
  -- BCS, 44_branch_jump.md R201
  | .bcs d => Sys2Proof.Machine.execBcs d s
  -- BEQ, 44_branch_jump.md R202
  | .beq d => Sys2Proof.Machine.execBeq d s
  -- BNE, 44_branch_jump.md R203
  | .bne d => Sys2Proof.Machine.execBne d s
  -- BMI, 44_branch_jump.md R204
  | .bmi d => Sys2Proof.Machine.execBmi d s
  -- BPL, 44_branch_jump.md R205
  | .bpl d => Sys2Proof.Machine.execBpl d s
  -- BVC, 44_branch_jump.md R206
  | .bvc d => Sys2Proof.Machine.execBvc d s
  -- BVS, 44_branch_jump.md R207
  | .bvs d => Sys2Proof.Machine.execBvs d s
  -- JMP, 44_branch_jump.md R208
  | .jmpAbs w => Sys2Proof.Machine.execJmpAbs w s
  | .jmpInd w => Sys2Proof.Machine.execJmpInd w s
  -- JSR, 44_branch_jump.md R209
  | .jsr w => Sys2Proof.Machine.execJsr w s
  -- RTS, 44_branch_jump.md R210
  | .rts => Sys2Proof.Machine.execRts s
  -- PHA, 45_stack_flag_system.md R220
  | .pha => Sys2Proof.Machine.execPha s
  -- PLA, 45_stack_flag_system.md R221
  | .pla => Sys2Proof.Machine.execPla s
  -- PHP, 45_stack_flag_system.md R222
  | .php => Sys2Proof.Machine.execPhp s
  -- PLP, 45_stack_flag_system.md R223
  | .plp => Sys2Proof.Machine.execPlp s
  -- CLC, 45_stack_flag_system.md R224
  | .clc => Sys2Proof.Machine.execClc s
  -- SEC, 45_stack_flag_system.md R225
  | .sec => Sys2Proof.Machine.execSec s
  -- CLI, 45_stack_flag_system.md R226
  | .cli => Sys2Proof.Machine.execCli s
  -- SEI, 45_stack_flag_system.md R227
  | .sei => Sys2Proof.Machine.execSei s
  -- CLV, 45_stack_flag_system.md R228
  | .clv => Sys2Proof.Machine.execClv s
  -- CLD, 45_stack_flag_system.md R229
  | .cld => Sys2Proof.Machine.execCld s
  -- SED, 45_stack_flag_system.md R230
  | .sed => Sys2Proof.Machine.execSed s
  -- NOP, 45_stack_flag_system.md R231
  | .nop => Sys2Proof.Machine.execNop s
  -- BRK, 45_stack_flag_system.md R232
  | .brk => Sys2Proof.Machine.execBrk s
  -- RTI, 45_stack_flag_system.md R233
  | .rti => Sys2Proof.Machine.execRti s

end Sys2Proof.Machine
end

