-- ==== Sys2Proof/Decode.lean ====
section
/-! DEFINITION. The decoder and the encoder (30_encoding.md R80 to R90). The first byte alone decides (R83); the bytes that
follow are operand fields. -/

namespace Sys2Proof

/-- What the opcode byte selects: a whole instruction, or one that awaits one operand byte or one little-endian operand
word (30_encoding.md R81). Not state: it lives inside the decoder. -/
inductive Entry where
  | done (i : Instr)
  | byte (f : Byte → Instr)
  | word (f : Word → Instr)

/-- The opcode map (30_encoding.md R86), row by row of its table; `none` is an unsupported byte (R88). -/
def opcodeEntry (op : Byte) : Option Entry :=
  match op.toNat with
  | 0x00 => some (.done .brk)
  | 0x01 => some (.byte .oraIzx)
  | 0x05 => some (.byte .oraZp)
  | 0x06 => some (.byte .aslZp)
  | 0x08 => some (.done .php)
  | 0x09 => some (.byte .oraImm)
  | 0x0A => some (.done .aslAcc)
  | 0x0D => some (.word .oraAbs)
  | 0x0E => some (.word .aslAbs)
  | 0x10 => some (.byte .bpl)
  | 0x11 => some (.byte .oraIzy)
  | 0x15 => some (.byte .oraZpx)
  | 0x16 => some (.byte .aslZpx)
  | 0x18 => some (.done .clc)
  | 0x19 => some (.word .oraAby)
  | 0x1D => some (.word .oraAbx)
  | 0x1E => some (.word .aslAbx)
  | 0x20 => some (.word .jsr)
  | 0x21 => some (.byte .andIzx)
  | 0x24 => some (.byte .bitZp)
  | 0x25 => some (.byte .andZp)
  | 0x26 => some (.byte .rolZp)
  | 0x28 => some (.done .plp)
  | 0x29 => some (.byte .andImm)
  | 0x2A => some (.done .rolAcc)
  | 0x2C => some (.word .bitAbs)
  | 0x2D => some (.word .andAbs)
  | 0x2E => some (.word .rolAbs)
  | 0x30 => some (.byte .bmi)
  | 0x31 => some (.byte .andIzy)
  | 0x35 => some (.byte .andZpx)
  | 0x36 => some (.byte .rolZpx)
  | 0x38 => some (.done .sec)
  | 0x39 => some (.word .andAby)
  | 0x3D => some (.word .andAbx)
  | 0x3E => some (.word .rolAbx)
  | 0x40 => some (.done .rti)
  | 0x41 => some (.byte .eorIzx)
  | 0x45 => some (.byte .eorZp)
  | 0x46 => some (.byte .lsrZp)
  | 0x48 => some (.done .pha)
  | 0x49 => some (.byte .eorImm)
  | 0x4A => some (.done .lsrAcc)
  | 0x4C => some (.word .jmpAbs)
  | 0x4D => some (.word .eorAbs)
  | 0x4E => some (.word .lsrAbs)
  | 0x50 => some (.byte .bvc)
  | 0x51 => some (.byte .eorIzy)
  | 0x55 => some (.byte .eorZpx)
  | 0x56 => some (.byte .lsrZpx)
  | 0x58 => some (.done .cli)
  | 0x59 => some (.word .eorAby)
  | 0x5D => some (.word .eorAbx)
  | 0x5E => some (.word .lsrAbx)
  | 0x60 => some (.done .rts)
  | 0x61 => some (.byte .adcIzx)
  | 0x65 => some (.byte .adcZp)
  | 0x66 => some (.byte .rorZp)
  | 0x68 => some (.done .pla)
  | 0x69 => some (.byte .adcImm)
  | 0x6A => some (.done .rorAcc)
  | 0x6C => some (.word .jmpInd)
  | 0x6D => some (.word .adcAbs)
  | 0x6E => some (.word .rorAbs)
  | 0x70 => some (.byte .bvs)
  | 0x71 => some (.byte .adcIzy)
  | 0x75 => some (.byte .adcZpx)
  | 0x76 => some (.byte .rorZpx)
  | 0x78 => some (.done .sei)
  | 0x79 => some (.word .adcAby)
  | 0x7D => some (.word .adcAbx)
  | 0x7E => some (.word .rorAbx)
  | 0x81 => some (.byte .staIzx)
  | 0x84 => some (.byte .styZp)
  | 0x85 => some (.byte .staZp)
  | 0x86 => some (.byte .stxZp)
  | 0x88 => some (.done .dey)
  | 0x8A => some (.done .txa)
  | 0x8C => some (.word .styAbs)
  | 0x8D => some (.word .staAbs)
  | 0x8E => some (.word .stxAbs)
  | 0x90 => some (.byte .bcc)
  | 0x91 => some (.byte .staIzy)
  | 0x94 => some (.byte .styZpx)
  | 0x95 => some (.byte .staZpx)
  | 0x96 => some (.byte .stxZpy)
  | 0x98 => some (.done .tya)
  | 0x99 => some (.word .staAby)
  | 0x9A => some (.done .txs)
  | 0x9D => some (.word .staAbx)
  | 0xA0 => some (.byte .ldyImm)
  | 0xA1 => some (.byte .ldaIzx)
  | 0xA2 => some (.byte .ldxImm)
  | 0xA4 => some (.byte .ldyZp)
  | 0xA5 => some (.byte .ldaZp)
  | 0xA6 => some (.byte .ldxZp)
  | 0xA8 => some (.done .tay)
  | 0xA9 => some (.byte .ldaImm)
  | 0xAA => some (.done .tax)
  | 0xAC => some (.word .ldyAbs)
  | 0xAD => some (.word .ldaAbs)
  | 0xAE => some (.word .ldxAbs)
  | 0xB0 => some (.byte .bcs)
  | 0xB1 => some (.byte .ldaIzy)
  | 0xB4 => some (.byte .ldyZpx)
  | 0xB5 => some (.byte .ldaZpx)
  | 0xB6 => some (.byte .ldxZpy)
  | 0xB8 => some (.done .clv)
  | 0xB9 => some (.word .ldaAby)
  | 0xBA => some (.done .tsx)
  | 0xBC => some (.word .ldyAbx)
  | 0xBD => some (.word .ldaAbx)
  | 0xBE => some (.word .ldxAby)
  | 0xC0 => some (.byte .cpyImm)
  | 0xC1 => some (.byte .cmpIzx)
  | 0xC4 => some (.byte .cpyZp)
  | 0xC5 => some (.byte .cmpZp)
  | 0xC6 => some (.byte .decZp)
  | 0xC8 => some (.done .iny)
  | 0xC9 => some (.byte .cmpImm)
  | 0xCA => some (.done .dex)
  | 0xCC => some (.word .cpyAbs)
  | 0xCD => some (.word .cmpAbs)
  | 0xCE => some (.word .decAbs)
  | 0xD0 => some (.byte .bne)
  | 0xD1 => some (.byte .cmpIzy)
  | 0xD5 => some (.byte .cmpZpx)
  | 0xD6 => some (.byte .decZpx)
  | 0xD8 => some (.done .cld)
  | 0xD9 => some (.word .cmpAby)
  | 0xDD => some (.word .cmpAbx)
  | 0xDE => some (.word .decAbx)
  | 0xE0 => some (.byte .cpxImm)
  | 0xE1 => some (.byte .sbcIzx)
  | 0xE4 => some (.byte .cpxZp)
  | 0xE5 => some (.byte .sbcZp)
  | 0xE6 => some (.byte .incZp)
  | 0xE8 => some (.done .inx)
  | 0xE9 => some (.byte .sbcImm)
  | 0xEA => some (.done .nop)
  | 0xEC => some (.word .cpxAbs)
  | 0xED => some (.word .sbcAbs)
  | 0xEE => some (.word .incAbs)
  | 0xF0 => some (.byte .beq)
  | 0xF1 => some (.byte .sbcIzy)
  | 0xF5 => some (.byte .sbcZpx)
  | 0xF6 => some (.byte .incZpx)
  | 0xF8 => some (.done .sed)
  | 0xF9 => some (.word .sbcAby)
  | 0xFD => some (.word .sbcAbx)
  | 0xFE => some (.word .incAbx)
  | _ => none

/-- Why bytes do not decode. -/
inductive DecodeError where
  /-- There is no byte to decode. -/
  | noBytes
  /-- The first byte is one of the 105 of 30_encoding.md R88. -/
  | unsupportedOpcode (opcode : Byte)
  /-- The opcode is supported and operand bytes are missing. -/
  | missingOperand (opcode : Byte)
  deriving DecidableEq, Repr

/-- Decode the instruction at the head of a list of bytes; answers it with the bytes after it. Total on any bytes. -/
def decode : List Byte → Except DecodeError (Instr × List Byte)
  | [] => .error .noBytes
  | op :: rest =>
    match opcodeEntry op, rest with
    | none, _ => .error (.unsupportedOpcode op)
    | some (.done i), rest => .ok (i, rest)
    | some (.byte f), b :: rest => .ok (f b, rest)
    | some (.word f), lo :: hi :: rest => .ok (f (wordOf hi lo), rest)
    | some _, _ => .error (.missingOperand op)

/-- The instruction an entry stands for, with every operand byte 0. -/
def Entry.sample : Entry → Instr
  | .done i => i
  | .byte f => f 0#8
  | .word f => f 0#16

/-- `Decode(b)` of 30_encoding.md R83: the mnemonic and format of an opcode byte, or `none` for an unsupported one. -/
def decodeByte (op : Byte) : Option (Mnemonic × Format) :=
  (opcodeEntry op).map fun e => (e.sample.mnemonic, e.sample.operand.format)

/-- The opcode byte of an instruction (30_encoding.md R87). -/
def opcode : Instr → Byte
  | .ldaImm _ => 0xA9#8
  | .ldaZp _ => 0xA5#8
  | .ldaZpx _ => 0xB5#8
  | .ldaAbs _ => 0xAD#8
  | .ldaAbx _ => 0xBD#8
  | .ldaAby _ => 0xB9#8
  | .ldaIzx _ => 0xA1#8
  | .ldaIzy _ => 0xB1#8
  | .ldxImm _ => 0xA2#8
  | .ldxZp _ => 0xA6#8
  | .ldxZpy _ => 0xB6#8
  | .ldxAbs _ => 0xAE#8
  | .ldxAby _ => 0xBE#8
  | .ldyImm _ => 0xA0#8
  | .ldyZp _ => 0xA4#8
  | .ldyZpx _ => 0xB4#8
  | .ldyAbs _ => 0xAC#8
  | .ldyAbx _ => 0xBC#8
  | .staZp _ => 0x85#8
  | .staZpx _ => 0x95#8
  | .staAbs _ => 0x8D#8
  | .staAbx _ => 0x9D#8
  | .staAby _ => 0x99#8
  | .staIzx _ => 0x81#8
  | .staIzy _ => 0x91#8
  | .stxZp _ => 0x86#8
  | .stxZpy _ => 0x96#8
  | .stxAbs _ => 0x8E#8
  | .styZp _ => 0x84#8
  | .styZpx _ => 0x94#8
  | .styAbs _ => 0x8C#8
  | .tax => 0xAA#8
  | .tay => 0xA8#8
  | .txa => 0x8A#8
  | .tya => 0x98#8
  | .tsx => 0xBA#8
  | .txs => 0x9A#8
  | .adcImm _ => 0x69#8
  | .adcZp _ => 0x65#8
  | .adcZpx _ => 0x75#8
  | .adcAbs _ => 0x6D#8
  | .adcAbx _ => 0x7D#8
  | .adcAby _ => 0x79#8
  | .adcIzx _ => 0x61#8
  | .adcIzy _ => 0x71#8
  | .sbcImm _ => 0xE9#8
  | .sbcZp _ => 0xE5#8
  | .sbcZpx _ => 0xF5#8
  | .sbcAbs _ => 0xED#8
  | .sbcAbx _ => 0xFD#8
  | .sbcAby _ => 0xF9#8
  | .sbcIzx _ => 0xE1#8
  | .sbcIzy _ => 0xF1#8
  | .cmpImm _ => 0xC9#8
  | .cmpZp _ => 0xC5#8
  | .cmpZpx _ => 0xD5#8
  | .cmpAbs _ => 0xCD#8
  | .cmpAbx _ => 0xDD#8
  | .cmpAby _ => 0xD9#8
  | .cmpIzx _ => 0xC1#8
  | .cmpIzy _ => 0xD1#8
  | .cpxImm _ => 0xE0#8
  | .cpxZp _ => 0xE4#8
  | .cpxAbs _ => 0xEC#8
  | .cpyImm _ => 0xC0#8
  | .cpyZp _ => 0xC4#8
  | .cpyAbs _ => 0xCC#8
  | .incZp _ => 0xE6#8
  | .incZpx _ => 0xF6#8
  | .incAbs _ => 0xEE#8
  | .incAbx _ => 0xFE#8
  | .inx => 0xE8#8
  | .iny => 0xC8#8
  | .decZp _ => 0xC6#8
  | .decZpx _ => 0xD6#8
  | .decAbs _ => 0xCE#8
  | .decAbx _ => 0xDE#8
  | .dex => 0xCA#8
  | .dey => 0x88#8
  | .andImm _ => 0x29#8
  | .andZp _ => 0x25#8
  | .andZpx _ => 0x35#8
  | .andAbs _ => 0x2D#8
  | .andAbx _ => 0x3D#8
  | .andAby _ => 0x39#8
  | .andIzx _ => 0x21#8
  | .andIzy _ => 0x31#8
  | .oraImm _ => 0x09#8
  | .oraZp _ => 0x05#8
  | .oraZpx _ => 0x15#8
  | .oraAbs _ => 0x0D#8
  | .oraAbx _ => 0x1D#8
  | .oraAby _ => 0x19#8
  | .oraIzx _ => 0x01#8
  | .oraIzy _ => 0x11#8
  | .eorImm _ => 0x49#8
  | .eorZp _ => 0x45#8
  | .eorZpx _ => 0x55#8
  | .eorAbs _ => 0x4D#8
  | .eorAbx _ => 0x5D#8
  | .eorAby _ => 0x59#8
  | .eorIzx _ => 0x41#8
  | .eorIzy _ => 0x51#8
  | .bitZp _ => 0x24#8
  | .bitAbs _ => 0x2C#8
  | .aslAcc => 0x0A#8
  | .aslZp _ => 0x06#8
  | .aslZpx _ => 0x16#8
  | .aslAbs _ => 0x0E#8
  | .aslAbx _ => 0x1E#8
  | .lsrAcc => 0x4A#8
  | .lsrZp _ => 0x46#8
  | .lsrZpx _ => 0x56#8
  | .lsrAbs _ => 0x4E#8
  | .lsrAbx _ => 0x5E#8
  | .rolAcc => 0x2A#8
  | .rolZp _ => 0x26#8
  | .rolZpx _ => 0x36#8
  | .rolAbs _ => 0x2E#8
  | .rolAbx _ => 0x3E#8
  | .rorAcc => 0x6A#8
  | .rorZp _ => 0x66#8
  | .rorZpx _ => 0x76#8
  | .rorAbs _ => 0x6E#8
  | .rorAbx _ => 0x7E#8
  | .bcc _ => 0x90#8
  | .bcs _ => 0xB0#8
  | .beq _ => 0xF0#8
  | .bne _ => 0xD0#8
  | .bmi _ => 0x30#8
  | .bpl _ => 0x10#8
  | .bvc _ => 0x50#8
  | .bvs _ => 0x70#8
  | .jmpAbs _ => 0x4C#8
  | .jmpInd _ => 0x6C#8
  | .jsr _ => 0x20#8
  | .rts => 0x60#8
  | .pha => 0x48#8
  | .pla => 0x68#8
  | .php => 0x08#8
  | .plp => 0x28#8
  | .clc => 0x18#8
  | .sec => 0x38#8
  | .cli => 0x58#8
  | .sei => 0x78#8
  | .clv => 0xB8#8
  | .cld => 0xD8#8
  | .sed => 0xF8#8
  | .nop => 0xEA#8
  | .brk => 0x00#8
  | .rti => 0x40#8

/-- The operand bytes of a memory operand (30_encoding.md R81): `zp8`, or the low byte and then the high byte of
`addr16`. -/
def MemMode.bytes : MemMode → List Byte
  | .zp z | .zpx z | .zpy z | .izx z | .izy z => [z]
  | .abs w | .abx w | .aby w => [lo8 w, hi8 w]

/-- The operand bytes of an operand (30_encoding.md R81). -/
def Operand.bytes : Operand → List Byte
  | .imp | .acc => []
  | .imm v => [v]
  | .mem m => m.bytes
  | .ind w => [lo8 w, hi8 w]
  | .rel d => [d]

/-- The bytes of an instruction: its opcode byte, then its operand bytes (30_encoding.md R80). -/
def encode (i : Instr) : List Byte := opcode i :: i.operand.bytes

/-- The three bytes, lowest address first, of an instruction whose bits are `w` numbered as opcode_table.json numbers
them; every bit from `nbits` up is 0. -/
def tableBytes (nbits w : Nat) : List Byte :=
  let v := w % 2 ^ nbits
  [BitVec.ofNat 8 v, BitVec.ofNat 8 (v / 2 ^ 8), BitVec.ofNat 8 (v / 2 ^ 16)]

/-- The instruction the decoder reads from a table word (log entry 11). -/
def decodeTableWord (nbits w : Nat) : Option Instr :=
  match decode (tableBytes nbits w) with
  | .ok (i, _) => some i
  | .error _ => none

end Sys2Proof
end

