-- ==== Sys2Proof/Machine/Fetch.lean ====
section
/-! DEFINITION. Fetching an instruction's operand bytes (40_engine_addressing.md R100 to R102, R124), and placing an
instruction where the step fetches. -/

namespace Sys2Proof.Machine

/-- Fetch the operand bytes that an opcode's entry awaits: the part of every resolver that advances `pc` (R100, R124).
They are fetched in ascending order of address, before any pointer or data access (60_exceptions.md R247). -/
def fetchOperand (e : Entry) (st : State) : Except Fault (Instr × State) :=
  match e with
  | .done i => .ok (i, st)
  | .byte f => do
    let (b, st1) ← fetch8 st
    pure (f b, st1)
  | .word f => do
    let (w, st1) ← fetch16 st
    pure (f w, st1)

/-- The `n` bytes at consecutive addresses from `addr`, as the bus gives them. -/
def loadBytes (addr : Word) : Nat → State → Except Fault (List Byte)
  | 0, _ => .ok []
  | n + 1, st => do
    let b ← busLoad addr st
    let bs ← loadBytes (addr + 1#16) n st
    pure (b :: bs)

/-! ## Placing bytes from outside the machine -/

/-- Whether an address has a byte behind it: RAM, or the program image (20_memory.md R42, R53). -/
def backed (addr : Word) : Bool := addr.toNat ≤ 0x1FFF || 0x8000 ≤ addr.toNat

/-- Put a byte behind an address, in RAM or in the program image; an address with no byte behind it takes none. It is what
the host does when it supplies RAM0 or PRG (70_reset_and_hazards.md R265), not an access of the machine. -/
def poke (addr : Word) (v : Byte) (st : State) : State :=
  match busTarget addr with
  | .ram i => st.setRam (Memory.set st.ram i v)
  | .unimplemented _ => st
  | .cartridge =>
    if addr.toNat < 0x8000 then st
    else st.setParams { st.params with prg := Memory.set st.params.prg (prgOffset st.params.prgUnits addr) v }

/-- Put consecutive bytes from an address on. -/
def pokeAll (addr : Word) : List Byte → State → State
  | [], st => st
  | b :: bs, st => pokeAll (addr + 1#16) bs (poke addr b st)

/-- The bytes the decoder takes for the instruction at the head of a list; 1 for an unsupported opcode. -/
def neededBytes (bs : List Byte) : Nat :=
  match decode bs with
  | .ok (i, _) => i.length
  | .error _ => 1

/-- Where an instruction of `n` bytes can stand so that it is fetched next: at `pc`, or at 0x0200 where `pc` reaches
addresses with no byte behind them. -/
def fetchSite (n : Nat) (st : State) : Word :=
  if (List.range n).all (fun k => backed (st.pc + BitVec.ofNat 16 k)) then st.pc else 0x0200#16

/-- A state in which the very next step fetches the instruction whose table word is `w` (log entry 6): `Running`, the
instruction's bytes at the fetch site, `pc` there. -/
def placeInstruction (nbits w : Nat) (st : State) : State :=
  let bs := tableBytes nbits w
  let site := fetchSite (neededBytes bs) st
  ((pokeAll site bs st).setPc site).setStatus .running

end Sys2Proof.Machine
end

