-- ==== Sys2Proof/Machine/Engine.lean ====
section
/-! DEFINITION. One pass of fetch, decode, execute (40_engine_addressing.md R100, R125). -/

namespace Sys2Proof.Machine

/-- `execute(opcode)` (40_engine_addressing.md R125; 70_reset_and_hazards.md R266): stages 2 to 4 of the step, with `pc` at
the first operand byte. An unsupported opcode is reported with the address `pc -16 1`, where it was fetched from. DESIGN CHOICE
(log entry 13): it does not read the run status, so a host that calls it on a `Faulted` machine, whose registers and RAM
are not defined, runs the instruction; `step` never does. -/
def executeOpcode (op : Byte) (st : State) : Host.Outcome State Fault Refusal :=
  match opcodeEntry op with
  | none => .fault (.unsupportedOpcode op (st.pc - 1#16))
  | some e =>
    match fetchOperand e st with
    | .ok (i, st1) => exec i st1
    | .error f => .fault f

/-- Fetch the opcode, then execute it: `Step() = (op <- Fetch8(); execute(op))` (R125). -/
def fetchAndExecute (st : State) : Host.Outcome State Fault Refusal :=
  match fetch8 st with
  | .ok (op, st1) => executeOpcode op st1
  | .error f => .fault f

end Sys2Proof.Machine
end

