-- ==== Sys2Proof/Machine/Step.lean ====
section
/-! DEFINITION. The step (40_engine_addressing.md R100), "enabled only when run status = Running". -/

namespace Sys2Proof.Machine

/-- One step. A `Faulted` machine takes none: it answers the fatal condition it already met (10_state.md R32; log
entry 7). -/
def step (st : State) : Host.Outcome State Fault Refusal :=
  match st.status with
  | .running => fetchAndExecute st
  | .faulted f => .fault f

/-- The state with an instruction placed where the step fetches its next one (log entry 6). -/
def State.withFetchWord (s : State) (nbits w : Nat) : State := placeInstruction nbits w s

end Sys2Proof.Machine
end

