-- ==== Sys2Proof/Machine/Run.lean ====
section
/-! DEFINITION. The host interface (70_reset_and_hazards.md R264 to R267; 20_memory.md R52): building the mapper, starting a
machine, and running it with its run status. -/

namespace Sys2Proof.Machine

/-- Why a mapper cannot be built (20_memory.md R52), "distinguishing 'PRG incomplete' from 'CHR incomplete'". -/
inductive ConstructionError where
  | prgIncomplete
  | chrIncomplete
  deriving DecidableEq, Repr

/-- The bytes of an image as a store, from index `i` on. -/
def imageFrom : Nat → List Byte → Memory
  | _, [] => []
  | i, b :: bs => if b = Memory.unlisted then imageFrom (i + 1) bs else (i, b) :: imageFrom (i + 1) bs

/-- Construction of the NROM-equivalent mapper (20_memory.md R52): both images must be long enough; bytes of PRG beyond the
declared units are unreachable and dropped (decision D13). DESIGN CHOICE (log entry 14): where both images are too short,
'PRG incomplete' is reported. The CHR bytes themselves are not held (10_state.md R31; log
entry 10), so only their number is taken. -/
def buildMapper (units : PrgUnits) (prg : List Byte) (chrUnits chrLength : Nat) (setting : ZpPtrWrap) :
    Except ConstructionError Params :=
  if prg.length < units.count * Config.prgUnitSize then .error .prgIncomplete
  else if chrLength < chrUnits * Config.chrUnitSize then .error .chrIncomplete
  else .ok { prgUnits := units, prg := imageFrom 0 (prg.take (units.count * Config.prgUnitSize)), zpPtrWrap := setting }

/-- Creation and the entry point that `START_PC` selects (00_scope.md R6; 70_reset_and_hazards.md R261, R262). RAM0 is a
list of at most 2048 bytes; those beyond its end are 0x00. -/
def launch (params : Params) (ram0 : List Byte) (startPc : Option Word) : Except Fault State :=
  let st := create params (imageFrom 0 (ram0.take Config.ramSize))
  match startPc with
  | none => powerUp st
  | some w => .ok (powerUpWithOverride w st)

/-- A machine that met a fatal condition (10_state.md R32; 60_exceptions.md R255): `Faulted`, the program image as it was,
the registers and RAM free (log entry 8). -/
def haltWith (f : Fault) (st : State) : State :=
  ((State.faultLeaves f st).setStatus (.faulted f)).setParams st.params

/-- The step as a total map of states that keeps a `Faulted` machine as it is: "A model should treat `Faulted` as never
final and keep it for the rest of the run" (60_exceptions.md R255). -/
def tick (st : State) : State :=
  match st.status with
  | .faulted _ => st
  | .running =>
    match step st with
    | .next t => t
    | .fault f => haltWith f st
    | .refused _ => st

/-- `run()`, observed after `n` steps of the host's choosing (70_reset_and_hazards.md R264, R267). -/
def run : Nat → State → State
  | 0, st => st
  | n + 1, st => run n (tick st)

end Sys2Proof.Machine
end

