-- ==== Sys2Proof/WellFormed.lean ====
section
/-! DEFINITION. Which mnemonic exists in which format (30_encoding.md R87): a pair of a mnemonic and an operand is an
instruction only where that table has an opcode byte. No operand VALUE is ever ill-formed: "Every operand byte value 0x00
to 0xFF is legal in every format" (30_encoding.md R89). -/

namespace Sys2Proof

/-- The formats in which a mnemonic has an opcode: the filled cells of its row in 30_encoding.md R87. -/
def Mnemonic.formats : Mnemonic → List Format
  | .lda | .adc | .sbc | .cmp | .and | .ora | .eor => [.imm, .zp, .zpx, .abs, .abx, .aby, .izx, .izy]
  | .ldx => [.imm, .zp, .zpy, .abs, .aby]
  | .ldy => [.imm, .zp, .zpx, .abs, .abx]
  | .sta => [.zp, .zpx, .abs, .abx, .aby, .izx, .izy]
  | .stx => [.zp, .zpy, .abs]
  | .sty => [.zp, .zpx, .abs]
  | .tax | .tay | .txa | .tya | .tsx | .txs | .inx | .iny | .dex | .dey => [.imp]
  | .rts | .pha | .pla | .php | .plp | .clc | .sec | .cli | .sei | .clv => [.imp]
  | .cld | .sed | .nop | .brk | .rti => [.imp]
  | .cpx | .cpy => [.imm, .zp, .abs]
  | .inc | .dec => [.zp, .zpx, .abs, .abx]
  | .bit => [.zp, .abs]
  | .asl | .lsr | .rol | .ror => [.acc, .zp, .zpx, .abs, .abx]
  | .bcc | .bcs | .beq | .bne | .bmi | .bpl | .bvc | .bvs => [.rel]
  | .jmp => [.abs, .ind]
  | .jsr => [.abs]

/-- The check: the mnemonic has an opcode in the operand's format. "A blank cell means the mnemonic has no opcode in that
format" (30_encoding.md R87). -/
def fits (m : Mnemonic) (o : Operand) : Bool := m.formats.contains o.format

/-- An instruction is well-formed when its mnemonic exists in its format. Every constructor of `Instr` is: the type has no
constructor for a blank cell. -/
def Instr.wf (i : Instr) : Bool := fits i.mnemonic i.operand

end Sys2Proof
end

