-- ==== Sys2Proof/Safety.lean ====
section
/-! DEFINITION. The words in which claims are made: which addresses can be read and written, when two addresses name the
same byte, which bytes an instruction stores to, and the invariant of a machine's state. -/

namespace Sys2Proof.Machine

/-- A load at the address succeeds: RAM and its mirrors, and the PRG window (20_memory.md R42, R53). -/
abbrev Readable (a : Word) : Prop := a.toNat < 0x2000 ∨ 0x8000 ≤ a.toNat

/-- A store at the address succeeds: "The only store that succeeds is a store to internal RAM" (20_memory.md R45). -/
abbrev Writable (a : Word) : Prop := a.toNat < 0x2000

/-- Two addresses are images of one byte of internal RAM (20_memory.md R43). -/
abbrev SameRamByte (a b : Word) : Prop := a.toNat < 0x2000 ∧ b.toNat < 0x2000 ∧ a.toNat % 0x800 = b.toNat % 0x800

/-- The number of PRG bytes (20_memory.md R52; decision D13). -/
abbrev prgSize (q : Params) : Nat := q.prgUnits.count * Config.prgUnitSize

/-- The invariant of a state: both stores in canonical form and inside their sizes. -/
abbrev State.Inv (st : State) : Prop :=
  Memory.wf st.ram ∧ Memory.within st.ram Config.ramSize ∧
  Memory.wf st.params.prg ∧ Memory.within st.params.prg (prgSize st.params)

/-- The mnemonics that store to an effective address (60_exceptions.md R242); ASL, LSR, ROL and ROR only in their memory
forms. -/
def storesAtEa (m : Mnemonic) : Bool :=
  m ∈ [.sta, .stx, .sty, .inc, .dec, .asl, .lsr, .rol, .ror]

/-- The addresses an instruction stores to, with the functions its meaning uses: the effective address of a storing
instruction, the stack slots of a pushing one, nothing for any other. -/
def storedAddrs (i : Instr) (st : State) : List Word :=
  match i.mnemonic, i.operand with
  | .pha, _ | .php, _ => [stackAddr st.s]
  | .jsr, _ => [stackAddr st.s, stackAddr (st.s - 1#8)]
  | .brk, _ => [stackAddr st.s, stackAddr (st.s - 1#8), stackAddr (st.s - 2#8)]
  | m, .mem mm => if storesAtEa m then (effAddr mm st).toOption.toList else []
  | _, _ => []

/-- The forms of a mnemonic: each of its instructions has one of the listed formats with the listed opcode byte, and each
listed byte decodes to the mnemonic in that format (the "Operands" line of an instruction's rule). -/
def HasForms (m : Mnemonic) (forms : List (Format × Byte)) : Prop :=
  (∀ i : Instr, i.mnemonic = m → (i.operand.format, opcode i) ∈ forms) ∧
  ∀ q ∈ forms, decodeByte q.2 = some (m, q.1)

/-- The mnemonics that write each flag (10_state.md R27). -/
def flagWriters : Flag → List Mnemonic
  | .c => [.adc, .sbc, .cmp, .cpx, .cpy, .asl, .lsr, .rol, .ror, .clc, .sec, .plp, .rti]
  | .z | .n => [.lda, .ldx, .ldy, .tax, .tay, .txa, .tya, .tsx, .pla, .and, .ora, .eor, .bit, .adc, .sbc, .cmp, .cpx,
      .cpy, .inc, .inx, .iny, .dec, .dex, .dey, .asl, .lsr, .rol, .ror, .plp, .rti]
  | .i => [.sei, .cli, .brk, .plp, .rti]
  | .d => [.sed, .cld, .plp, .rti]
  | .b => [.brk, .plp, .rti]
  | .u => [.plp, .rti]
  | .v => [.adc, .sbc, .bit, .clv, .plp, .rti]

/-- The condition of each branch: the flag it tests and the value on which it is taken (44_branch_jump.md R200 to R207). -/
def branchCondition : Mnemonic → Option (Flag × Bool)
  | .bcc => some (.c, false)
  | .bcs => some (.c, true)
  | .beq => some (.z, true)
  | .bne => some (.z, false)
  | .bmi => some (.n, true)
  | .bpl => some (.n, false)
  | .bvc => some (.v, false)
  | .bvs => some (.v, true)
  | _ => none

/-- The result of each shift of `v` with carry `c` before it, as a number, and the bit shifted out (43_logic_shift.md R184 to
R187). -/
def shiftResult (m : Mnemonic) (v : Byte) (c : Bool) : Option (Nat × Bool) :=
  match m with
  | .asl => some (v.toNat * 2 % 256, v.getLsbD 7)
  | .lsr => some (v.toNat / 2, v.getLsbD 0)
  | .rol => some ((v.toNat * 2 + c.toNat) % 256, v.getLsbD 7)
  | .ror => some (v.toNat / 2 + 128 * c.toNat, v.getLsbD 0)
  | _ => none

/-- `p'` is `p` with the listed flags written as listed and every other flag kept. -/
def FlagsWritten (p p' : Byte) (written : List (Flag × Bool)) : Prop :=
  ∀ f, getFlag f p' = (written.lookup f).getD (getFlag f p)

/-- A run of `n` steps that meets no fatal condition. -/
def SafeFor (n : Nat) (st : State) : Prop := (run n st).status = .running

end Sys2Proof.Machine
end

