-- ==== Sys2Proof/Certificates/Slice0/Obligations.lean ====
section
/-! DEFINITION. The statements about the machine, each formalising or resting on numbered rules of spec/. `exec i st` runs on
a state whose `pc` lies past the instruction (40_engine_addressing.md R124). -/

open Sys2Proof Sys2Proof.Machine

/-! ## Encoding -/

/-- Decoding the bytes of any instruction gives it back, with every operand at every value, and consumes exactly them
(30_encoding.md R80 to R83). -/
def Obligations.DecodeEncodeRoundTrip : Prop :=
  ∀ (i : Instr) (rest : List Byte), decode (encode i ++ rest) = .ok (i, rest)

/-- Only the bytes of an instruction decode to it: no bit of an encoding is ignored (30_encoding.md R83, R86). -/
def Obligations.DecodedBytesAreTheEncoding : Prop :=
  ∀ (bs : List Byte) (i : Instr) (rest : List Byte), decode bs = .ok (i, rest) → bs = encode i ++ rest

/-- The 105 unsupported bytes of 30_encoding.md R88 are exactly the bytes that do not decode, and fetching one raises
UnsupportedOpcode with the byte and the address it was fetched from (60_exceptions.md R244). -/
def Obligations.UnsupportedBytesFault : Prop :=
  (∀ op : Byte, decodeByte op = none ↔ op.toNat ∈
    [0x02, 0x03, 0x04, 0x07, 0x0B, 0x0C, 0x0F, 0x12, 0x13, 0x14, 0x17, 0x1A, 0x1B, 0x1C, 0x1F,
     0x22, 0x23, 0x27, 0x2B, 0x2F, 0x32, 0x33, 0x34, 0x37, 0x3A, 0x3B, 0x3C, 0x3F, 0x42, 0x43,
     0x44, 0x47, 0x4B, 0x4F, 0x52, 0x53, 0x54, 0x57, 0x5A, 0x5B, 0x5C, 0x5F, 0x62, 0x63, 0x64,
     0x67, 0x6B, 0x6F, 0x72, 0x73, 0x74, 0x77, 0x7A, 0x7B, 0x7C, 0x7F, 0x80, 0x82, 0x83, 0x87,
     0x89, 0x8B, 0x8F, 0x92, 0x93, 0x97, 0x9B, 0x9C, 0x9E, 0x9F, 0xA3, 0xA7, 0xAB, 0xAF, 0xB2,
     0xB3, 0xB7, 0xBB, 0xBF, 0xC2, 0xC3, 0xC7, 0xCB, 0xCF, 0xD2, 0xD3, 0xD4, 0xD7, 0xDA, 0xDB,
     0xDC, 0xDF, 0xE2, 0xE3, 0xE7, 0xEB, 0xEF, 0xF2, 0xF3, 0xF4, 0xF7, 0xFA, 0xFB, 0xFC, 0xFF]) ∧
  ∀ (st : State) (op : Byte), st.status = .running → busLoad st.pc st = .ok op → decodeByte op = none →
    step st = .fault (.unsupportedOpcode op st.pc)

/-- Words written out from 30_encoding.md R87 and R91 decode to what they stand for, at least one per family and one per format. -/
def Obligations.SampleWordsDecode : Prop :=
  decode [0xA9#8, 0x10#8] = .ok (.ldaImm 0x10#8, []) ∧
  decode [0xA5#8, 0x10#8] = .ok (.ldaZp 0x10#8, []) ∧
  decode [0xB5#8, 0xFF#8] = .ok (.ldaZpx 0xFF#8, []) ∧
  decode [0xB6#8, 0x10#8] = .ok (.ldxZpy 0x10#8, []) ∧
  decode [0xBD#8, 0x34#8, 0x12#8] = .ok (.ldaAbx 0x1234#16, []) ∧
  decode [0xB9#8, 0x34#8, 0x12#8] = .ok (.ldaAby 0x1234#16, []) ∧
  decode [0x81#8, 0x20#8] = .ok (.staIzx 0x20#8, []) ∧
  decode [0xF1#8, 0x30#8] = .ok (.sbcIzy 0x30#8, []) ∧
  decode [0x2C#8, 0x00#8, 0x03#8] = .ok (.bitAbs 0x0300#16, []) ∧
  decode [0x0A#8] = .ok (.aslAcc, []) ∧
  decode [0xD0#8, 0xF9#8] = .ok (.bne 0xF9#8, []) ∧
  decode [0x6C#8, 0xFF#8, 0x02#8] = .ok (.jmpInd 0x02FF#16, []) ∧
  decode [0x00#8] = .ok (.brk, [])

/-- An instruction is one opcode byte followed by its format's operand bytes, 1 to 3 bytes in all (30_encoding.md R80,
R81), and its mnemonic exists in its format (R87). -/
def Obligations.EncodedLengths : Prop :=
  ∀ i : Instr, (encode i).length = 1 + i.operand.format.operandBytes ∧ (encode i).length ≤ 3 ∧ i.wf = true

/-! ## Memory and the bus -/

/-- What each of the six address ranges does on a load and on a store (20_memory.md R42 to R56). -/
def Obligations.BusAccessByRange : Prop :=
  ∀ (addr : Word) (v : Byte) (st : State),
    (addr.toNat ≤ 0x1FFF →
      busLoad addr st = .ok (Memory.get st.ram (addr &&& 0x07FF#16).toNat) ∧
      busStore addr v st = .ok { st with ram := Memory.set st.ram (addr &&& 0x07FF#16).toNat v }) ∧
    (0x2000 ≤ addr.toNat → addr.toNat ≤ 0x3FFF →
      busLoad addr st = .error (.unimplementedRegion .ppu .read addr) ∧
      busStore addr v st = .error (.unimplementedRegion .ppu .write addr)) ∧
    (0x4000 ≤ addr.toNat → addr.toNat ≤ 0x401F →
      busLoad addr st = .error (.unimplementedRegion .apuIo .read addr) ∧
      busStore addr v st = .error (.unimplementedRegion .apuIo .write addr)) ∧
    (0x4020 ≤ addr.toNat → addr.toNat ≤ 0x7FFF →
      busLoad addr st = .error (.mapperRange .read addr) ∧
      busStore addr v st = .error (.mapperRange .write addr)) ∧
    (0x8000 ≤ addr.toNat →
      busLoad addr st = .ok (Memory.get st.params.prg
        (if st.params.prgUnits = .one ∧ 0xBFFF < addr.toNat then addr.toNat - 0xC000 else addr.toNat - 0x8000)) ∧
      busStore addr v st = .error (.readOnlyWrite addr))

/-- A store through any image of a RAM byte is seen through every image of it and through no other address
(20_memory.md R42 to R45). -/
def Obligations.RamMirrors : Prop :=
  ∀ (a : Word) (v : Byte) (st : State), a.toNat ≤ 0x1FFF →
    (a &&& 0x07FF#16).toNat = a.toNat % 0x0800 ∧
    ∃ t, busStore a v st = .ok t ∧
      (∀ b : Word, b.toNat ≤ 0x1FFF → b.toNat % 0x0800 = a.toNat % 0x0800 → busLoad b t = .ok v) ∧
      ∀ b : Word, ¬(b.toNat ≤ 0x1FFF ∧ b.toNat % 0x0800 = a.toNat % 0x0800) → busLoad b t = busLoad b st

/-- The PRG window: with one unit both halves read the same 16 KB, with two units 32 KB in a row (20_memory.md R53). -/
def Obligations.NromWindow : Prop :=
  ∀ (st : State) (k : Nat),
    (st.params.prgUnits = .one → k < 0x4000 →
      busLoad (BitVec.ofNat 16 (0x8000 + k)) st = .ok (Memory.get st.params.prg k) ∧
      busLoad (BitVec.ofNat 16 (0xC000 + k)) st = .ok (Memory.get st.params.prg k)) ∧
    (st.params.prgUnits = .two → k < 0x8000 →
      busLoad (BitVec.ofNat 16 (0x8000 + k)) st = .ok (Memory.get st.params.prg k))

/-- A word stored at two RAM addresses lies low byte first and loads back (20_memory.md R57 to R59; 95_test_vectors.md
S2). -/
def Obligations.WordStoreThenLoad : Prop :=
  ∀ (addr w : Word) (st : State), addr.toNat ≤ 0x1FFF → (addr + 1#16).toNat ≤ 0x1FFF →
    ∃ t, storeWord addr w st = .ok t ∧ busLoad addr t = .ok (lo8 w) ∧ busLoad (addr + 1#16) t = .ok (hi8 w) ∧
      loadWord addr t = .ok w

/-- A store is seen by the next fetch, through any image of the byte: no instruction buffer (20_memory.md R65;
70_reset_and_hazards.md R269). -/
def Obligations.FetchSeesStore : Prop :=
  ∀ (a b : Word) (v : Byte) (st t : State), busStore a v st = .ok t → SameRamByte a b →
    fetch8 { t with pc := b } = .ok (v, { t with pc := b + 1#16 })

/-! ## Flags, stack and operands -/

/-- Each flag is the bit of `P` under its mask (10_state.md R26). `SetZN(v)` writes Z and N and no other flag; Z and N are
never both 1 after it (40_engine_addressing.md R118). -/
def Obligations.SetZnWritesTwoFlags : Prop :=
  (∀ p : Byte,
    getFlag .c p = (p &&& 0x01#8 != 0x00#8) ∧ getFlag .z p = (p &&& 0x02#8 != 0x00#8) ∧
    getFlag .i p = (p &&& 0x04#8 != 0x00#8) ∧ getFlag .d p = (p &&& 0x08#8 != 0x00#8) ∧
    getFlag .b p = (p &&& 0x10#8 != 0x00#8) ∧ getFlag .u p = (p &&& 0x20#8 != 0x00#8) ∧
    getFlag .v p = (p &&& 0x40#8 != 0x00#8) ∧ getFlag .n p = (p &&& 0x80#8 != 0x00#8)) ∧
  ∀ v p : Byte, FlagsWritten p (setZN v p) [(.z, v == 0x00#8), (.n, v &&& 0x80#8 != 0x00#8)] ∧
    ¬(getFlag .z (setZN v p) = true ∧ getFlag .n (setZN v p) = true)

/-- `Push8` and `Pull8` (40_engine_addressing.md R120, R121): the stack page, wrapping modulo 256, never a fault; a pull
after a push gives the byte back, with `S` where it was and the byte still in RAM. -/
def Obligations.StackPrimitives : Prop :=
  ∀ (v : Byte) (st : State),
    push8 v st = .ok { st with ram := Memory.set st.ram (0x100 + st.s.toNat) v, s := st.s - 1#8 } ∧
    pull8 st = .ok (Memory.get st.ram (0x100 + (st.s + 1#8).toNat), { st with s := st.s + 1#8 }) ∧
    ∃ t, push8 v st = .ok t ∧ pull8 t = .ok (v, { t with s := st.s })

/-- `Push16` puts the high byte at the slot of `S` and the low byte at the slot below, `Pull16` reads the low byte and then
the high byte, and after `Push16` it gives the word back with `S` where it was (40_engine_addressing.md R122, R123). -/
def Obligations.WordPushThenPull : Prop :=
  ∀ (w : Word) (st : State), ∃ t, push16 w st = .ok t ∧
    t = { st with ram := t.ram, s := st.s - 2#8 } ∧
    Memory.get t.ram (0x100 + st.s.toNat) = hi8 w ∧
    Memory.get t.ram (0x100 + (st.s - 1#8).toNat) = lo8 w ∧
    (∀ k, k ≠ 0x100 + st.s.toNat → k ≠ 0x100 + (st.s - 1#8).toNat → Memory.get t.ram k = Memory.get st.ram k) ∧
    pull16 t = .ok (w, { t with s := st.s }) ∧
    pull16 st = .ok (wordOf (Memory.get st.ram (0x100 + (st.s + 2#8).toNat)) (Memory.get st.ram (0x100 + (st.s + 1#8).toNat)),
      { st with s := st.s + 2#8 })

/-- The effective addresses of the six direct formats, as numbers (40_engine_addressing.md R105 to R110). -/
def Obligations.DirectEffectiveAddresses : Prop :=
  ∀ (z : Byte) (w : Word) (st : State),
    effAddr (.zp z) st = .ok (BitVec.ofNat 16 z.toNat) ∧
    effAddr (.zpx z) st = .ok (BitVec.ofNat 16 ((z.toNat + st.x.toNat) % 256)) ∧
    effAddr (.zpy z) st = .ok (BitVec.ofNat 16 ((z.toNat + st.y.toNat) % 256)) ∧
    effAddr (.abs w) st = .ok w ∧
    effAddr (.abx w) st = .ok (BitVec.ofNat 16 (w.toNat + st.x.toNat)) ∧
    effAddr (.aby w) st = .ok (BitVec.ofNat 16 (w.toNat + st.y.toNat))

/-- `ZpPtrRead` for both settings of the open parameter, and that they agree away from 0xFF (40_engine_addressing.md R113). -/
def Obligations.ZeroPagePointerRead : Prop :=
  ∀ (p : Byte) (st : State),
    (st.params.zpPtrWrap = .wrap → ∃ lo hi, busLoad (zext16 p) st = .ok lo ∧ busLoad (zext16 (p + 1#8)) st = .ok hi ∧
      zpPtrRead p st = .ok (wordOf hi lo)) ∧
    (st.params.zpPtrWrap = .nowrap → ∃ lo hi, busLoad (zext16 p) st = .ok lo ∧
      busLoad (zext16 p + 1#16) st = .ok hi ∧ zpPtrRead p st = .ok (wordOf hi lo)) ∧
    (p ≠ 0xFF#8 → ∀ q, zpPtrRead p { st with params := { st.params with zpPtrWrap := q } } = zpPtrRead p st)

/-- Indexed indirect adds X to the pointer's place, indirect indexed adds Y to the pointer's value
(40_engine_addressing.md R112, R114); neither faults. -/
def Obligations.IndirectEffectiveAddresses : Prop :=
  ∀ (z : Byte) (st : State),
    (∃ ptr, zpPtrRead (z + st.x) st = .ok ptr ∧ effAddr (.izx z) st = .ok ptr) ∧
    (∃ base, zpPtrRead z st = .ok base ∧ effAddr (.izy z) st = .ok (BitVec.ofNat 16 (base.toNat + st.y.toNat)))

/-- The operand value `M`: the immediate byte, or one load at the effective address, with that load's fault
(40_engine_addressing.md R104, R119). Resolving a memory operand never faults. -/
def Obligations.OperandValue : Prop :=
  ∀ st : State, (∀ v, readSource (.imm v) st = .ok v) ∧
    ∀ m, ∃ ea, effAddr m st = .ok ea ∧ readSource (.mem m) st = busLoad ea st

/-! ## Loads, stores, transfers -/

/-- LDA, LDX, LDY in all their forms: register and Z, N from the operand, nothing else; a faulting operand read ends the
instruction with its fault (41_load_store_transfer.md R140 to R142). -/
def Obligations.LoadsResult : Prop :=
  HasForms .lda [(.imm, 0xA9#8), (.zp, 0xA5#8), (.zpx, 0xB5#8), (.abs, 0xAD#8), (.abx, 0xBD#8), (.aby, 0xB9#8),
    (.izx, 0xA1#8), (.izy, 0xB1#8)] ∧
  HasForms .ldx [(.imm, 0xA2#8), (.zp, 0xA6#8), (.zpy, 0xB6#8), (.abs, 0xAE#8), (.aby, 0xBE#8)] ∧
  HasForms .ldy [(.imm, 0xA0#8), (.zp, 0xA4#8), (.zpx, 0xB4#8), (.abs, 0xAC#8), (.abx, 0xBC#8)] ∧
  ∀ (i : Instr) (st : State), i.mnemonic ∈ [.lda, .ldx, .ldy] → ∃ src : Source, i.operand = src.operand ∧
    (∀ v, readSource src st = .ok v →
      (i.mnemonic = .lda → exec i st = .next { st with a := v, p := setZN v st.p }) ∧
      (i.mnemonic = .ldx → exec i st = .next { st with x := v, p := setZN v st.p }) ∧
      (i.mnemonic = .ldy → exec i st = .next { st with y := v, p := setZN v st.p })) ∧
    (∀ f, readSource src st = .error f → exec i st = .fault f)

/-- STA, STX, STY in all their forms: the byte at the effective address, no register and no flag; outside RAM the fault of
the store's range (41_load_store_transfer.md R143 to R145). -/
def Obligations.StoresResult : Prop :=
  HasForms .sta [(.zp, 0x85#8), (.zpx, 0x95#8), (.abs, 0x8D#8), (.abx, 0x9D#8), (.aby, 0x99#8), (.izx, 0x81#8),
    (.izy, 0x91#8)] ∧
  HasForms .stx [(.zp, 0x86#8), (.zpy, 0x96#8), (.abs, 0x8E#8)] ∧
  HasForms .sty [(.zp, 0x84#8), (.zpx, 0x94#8), (.abs, 0x8C#8)] ∧
  ∀ (i : Instr) (st : State), i.mnemonic ∈ [.sta, .stx, .sty] → ∃ m ea, i.operand = .mem m ∧ effAddr m st = .ok ea ∧
    (ea.toNat ≤ 0x1FFF →
      (i.mnemonic = .sta → exec i st = .next { st with ram := Memory.set st.ram (ea.toNat % 0x0800) st.a }) ∧
      (i.mnemonic = .stx → exec i st = .next { st with ram := Memory.set st.ram (ea.toNat % 0x0800) st.x }) ∧
      (i.mnemonic = .sty → exec i st = .next { st with ram := Memory.set st.ram (ea.toNat % 0x0800) st.y })) ∧
    (0x2000 ≤ ea.toNat → ea.toNat ≤ 0x3FFF → exec i st = .fault (.unimplementedRegion .ppu .write ea)) ∧
    (0x4000 ≤ ea.toNat → ea.toNat ≤ 0x401F → exec i st = .fault (.unimplementedRegion .apuIo .write ea)) ∧
    (0x4020 ≤ ea.toNat → ea.toNat ≤ 0x7FFF → exec i st = .fault (.mapperRange .write ea)) ∧
    (0x8000 ≤ ea.toNat → exec i st = .fault (.readOnlyWrite ea))

/-- The six transfers; TXS touches no flag (41_load_store_transfer.md R146 to R151). -/
def Obligations.TransfersResult : Prop :=
  HasForms .tax [(.imp, 0xAA#8)] ∧ HasForms .tay [(.imp, 0xA8#8)] ∧ HasForms .txa [(.imp, 0x8A#8)] ∧
  HasForms .tya [(.imp, 0x98#8)] ∧ HasForms .tsx [(.imp, 0xBA#8)] ∧ HasForms .txs [(.imp, 0x9A#8)] ∧
  ∀ st : State,
    exec .tax st = .next { st with x := st.a, p := setZN st.a st.p } ∧
    exec .tay st = .next { st with y := st.a, p := setZN st.a st.p } ∧
    exec .txa st = .next { st with a := st.x, p := setZN st.x st.p } ∧
    exec .tya st = .next { st with a := st.y, p := setZN st.y st.p } ∧
    exec .tsx st = .next { st with x := st.s, p := setZN st.s st.p } ∧
    exec .txs st = .next { st with s := st.x }

/-! ## Arithmetic -/

/-- ADC in all its forms: the 9-bit sum, its carry, the overflow bit, Z and N; I, D, B, U kept (42_arithmetic_compare.md
R160). -/
def Obligations.AdcResult : Prop :=
  HasForms .adc [(.imm, 0x69#8), (.zp, 0x65#8), (.zpx, 0x75#8), (.abs, 0x6D#8), (.abx, 0x7D#8), (.aby, 0x79#8),
    (.izx, 0x61#8), (.izy, 0x71#8)] ∧
  ∀ (i : Instr) (st : State), i.mnemonic = .adc → ∃ src : Source, i.operand = src.operand ∧
    (∀ m, readSource src st = .ok m → ∃ r p', exec i st = .next { st with a := r, p := p' } ∧
      r.toNat = (st.a.toNat + m.toNat + (getFlag .c st.p).toNat) % 256 ∧
      FlagsWritten st.p p' [(.c, decide (0xFF < st.a.toNat + m.toNat + (getFlag .c st.p).toNat)),
        (.v, ((st.a ^^^ r) &&& (m ^^^ r)).getLsbD 7), (.z, r == 0x00#8), (.n, r.getLsbD 7)]) ∧
    (∀ f, readSource src st = .error f → exec i st = .fault f)

/-- SBC in all its forms, as a subtraction with borrow: result, carry as no borrow, overflow bit, Z and N
(42_arithmetic_compare.md R161). -/
def Obligations.SbcResult : Prop :=
  HasForms .sbc [(.imm, 0xE9#8), (.zp, 0xE5#8), (.zpx, 0xF5#8), (.abs, 0xED#8), (.abx, 0xFD#8), (.aby, 0xF9#8),
    (.izx, 0xE1#8), (.izy, 0xF1#8)] ∧
  ∀ (i : Instr) (st : State), i.mnemonic = .sbc → ∃ src : Source, i.operand = src.operand ∧
    (∀ m, readSource src st = .ok m → ∃ r p', exec i st = .next { st with a := r, p := p' } ∧
      (r.toNat : Int) = ((st.a.toNat : Int) - m.toNat - (1 - (getFlag .c st.p).toNat)) % 256 ∧
      FlagsWritten st.p p' [(.c, decide (m.toNat + (1 - (getFlag .c st.p).toNat) ≤ st.a.toNat)),
        (.v, ((st.a ^^^ m) &&& (st.a ^^^ r)).getLsbD 7), (.z, r == 0x00#8), (.n, r.getLsbD 7)]) ∧
    (∀ f, readSource src st = .error f → exec i st = .fault f)

/-- The V flag of ADC and SBC is the signed overflow of the sum, the incoming carry included, and of the difference with
borrow (42_arithmetic_compare.md R160, R161, R171). -/
def Obligations.OverflowIsSigned : Prop :=
  ∀ (i : Instr) (src : Source) (st t : State) (m : Byte), i.operand = src.operand → readSource src st = .ok m →
    exec i st = .next t →
    (i.mnemonic = .adc → getFlag .v t.p =
      decide (st.a.toInt + m.toInt + (getFlag .c st.p).toNat < -128 ∨
        127 < st.a.toInt + m.toInt + (getFlag .c st.p).toNat)) ∧
    (i.mnemonic = .sbc → getFlag .v t.p =
      decide (st.a.toInt - m.toInt - (1 - (getFlag .c st.p).toNat) < -128 ∨
        127 < st.a.toInt - m.toInt - (1 - (getFlag .c st.p).toNat)))

/-- CMP, CPX, CPY in all their forms: C is the unsigned comparison, Z equality, N bit 7 of the wrapped difference; nothing
else (42_arithmetic_compare.md R162 to R164). -/
def Obligations.ComparesResult : Prop :=
  HasForms .cmp [(.imm, 0xC9#8), (.zp, 0xC5#8), (.zpx, 0xD5#8), (.abs, 0xCD#8), (.abx, 0xDD#8), (.aby, 0xD9#8),
    (.izx, 0xC1#8), (.izy, 0xD1#8)] ∧
  HasForms .cpx [(.imm, 0xE0#8), (.zp, 0xE4#8), (.abs, 0xEC#8)] ∧
  HasForms .cpy [(.imm, 0xC0#8), (.zp, 0xC4#8), (.abs, 0xCC#8)] ∧
  ∀ (i : Instr) (st : State) (reg : Byte),
    (i.mnemonic = .cmp ∧ reg = st.a) ∨ (i.mnemonic = .cpx ∧ reg = st.x) ∨ (i.mnemonic = .cpy ∧ reg = st.y) →
    ∃ src : Source, i.operand = src.operand ∧
    (∀ m, readSource src st = .ok m → ∃ p', exec i st = .next { st with p := p' } ∧
      FlagsWritten st.p p' [(.c, decide (m.toNat ≤ reg.toNat)), (.z, decide (reg = m)),
        (.n, decide (128 ≤ (reg.toNat + 256 - m.toNat) % 256))]) ∧
    (∀ f, readSource src st = .error f → exec i st = .fault f)

/-- INC and DEC in all their forms: one load, one store of the byte plus or minus one, Z and N; in PRG the load succeeds
and the store faults (42_arithmetic_compare.md R165, R168). -/
def Obligations.IncDecMemoryResult : Prop :=
  HasForms .inc [(.zp, 0xE6#8), (.zpx, 0xF6#8), (.abs, 0xEE#8), (.abx, 0xFE#8)] ∧
  HasForms .dec [(.zp, 0xC6#8), (.zpx, 0xD6#8), (.abs, 0xCE#8), (.abx, 0xDE#8)] ∧
  ∀ (i : Instr) (st : State), i.mnemonic ∈ [.inc, .dec] → ∃ m ea, i.operand = .mem m ∧ effAddr m st = .ok ea ∧
    (∀ v, busLoad ea st = .ok v → ea.toNat ≤ 0x1FFF →
      (i.mnemonic = .inc → exec i st =
        .next { st with ram := Memory.set st.ram (ea.toNat % 0x0800) (v + 1#8), p := setZN (v + 1#8) st.p }) ∧
      (i.mnemonic = .dec → exec i st =
        .next { st with ram := Memory.set st.ram (ea.toNat % 0x0800) (v - 1#8), p := setZN (v - 1#8) st.p })) ∧
    (0x8000 ≤ ea.toNat → exec i st = .fault (.readOnlyWrite ea)) ∧
    (∀ f, busLoad ea st = .error f → exec i st = .fault f)

/-- INX, INY, DEX, DEY: modulo 256, Z and N, nothing else (42_arithmetic_compare.md R166, R167, R169, R170). -/
def Obligations.IncDecRegisterResult : Prop :=
  HasForms .inx [(.imp, 0xE8#8)] ∧ HasForms .iny [(.imp, 0xC8#8)] ∧ HasForms .dex [(.imp, 0xCA#8)] ∧
  HasForms .dey [(.imp, 0x88#8)] ∧
  ∀ st : State,
    exec .inx st = .next { st with x := st.x + 1#8, p := setZN (st.x + 1#8) st.p } ∧
    exec .iny st = .next { st with y := st.y + 1#8, p := setZN (st.y + 1#8) st.p } ∧
    exec .dex st = .next { st with x := st.x - 1#8, p := setZN (st.x - 1#8) st.p } ∧
    exec .dey st = .next { st with y := st.y - 1#8, p := setZN (st.y - 1#8) st.p }

/-! ## Logic, shifts -/

/-- AND, ORA, EOR in all their forms (43_logic_shift.md R180 to R182). -/
def Obligations.LogicResult : Prop :=
  HasForms .and [(.imm, 0x29#8), (.zp, 0x25#8), (.zpx, 0x35#8), (.abs, 0x2D#8), (.abx, 0x3D#8), (.aby, 0x39#8),
    (.izx, 0x21#8), (.izy, 0x31#8)] ∧
  HasForms .ora [(.imm, 0x09#8), (.zp, 0x05#8), (.zpx, 0x15#8), (.abs, 0x0D#8), (.abx, 0x1D#8), (.aby, 0x19#8),
    (.izx, 0x01#8), (.izy, 0x11#8)] ∧
  HasForms .eor [(.imm, 0x49#8), (.zp, 0x45#8), (.zpx, 0x55#8), (.abs, 0x4D#8), (.abx, 0x5D#8), (.aby, 0x59#8),
    (.izx, 0x41#8), (.izy, 0x51#8)] ∧
  ∀ (i : Instr) (st : State), i.mnemonic ∈ [.and, .ora, .eor] → ∃ src : Source, i.operand = src.operand ∧
    (∀ m, readSource src st = .ok m →
      (i.mnemonic = .and → exec i st = .next { st with a := st.a &&& m, p := setZN (st.a &&& m) st.p }) ∧
      (i.mnemonic = .ora → exec i st = .next { st with a := st.a ||| m, p := setZN (st.a ||| m) st.p }) ∧
      (i.mnemonic = .eor → exec i st = .next { st with a := st.a ^^^ m, p := setZN (st.a ^^^ m) st.p })) ∧
    (∀ f, readSource src st = .error f → exec i st = .fault f)

/-- BIT in both its forms: Z from `A & M`, N and V copied from bits 7 and 6 of `M`, no register (43_logic_shift.md R183). -/
def Obligations.BitResult : Prop :=
  HasForms .bit [(.zp, 0x24#8), (.abs, 0x2C#8)] ∧
  ∀ (i : Instr) (st : State), i.mnemonic = .bit → ∃ src : Source, i.operand = src.operand ∧
    (∀ m, readSource src st = .ok m → ∃ p', exec i st = .next { st with p := p' } ∧
      FlagsWritten st.p p' [(.z, st.a &&& m == 0x00#8), (.n, m.getLsbD 7), (.v, m.getLsbD 6)]) ∧
    (∀ f, readSource src st = .error f → exec i st = .fault f)

/-- ASL, LSR, ROL, ROR in their accumulator and memory forms: the shifted byte as a number, C the bit shifted out, Z and N
from the result; in PRG the load succeeds and the store faults (43_logic_shift.md R184 to R187). -/
def Obligations.ShiftsResult : Prop :=
  HasForms .asl [(.acc, 0x0A#8), (.zp, 0x06#8), (.zpx, 0x16#8), (.abs, 0x0E#8), (.abx, 0x1E#8)] ∧
  HasForms .lsr [(.acc, 0x4A#8), (.zp, 0x46#8), (.zpx, 0x56#8), (.abs, 0x4E#8), (.abx, 0x5E#8)] ∧
  HasForms .rol [(.acc, 0x2A#8), (.zp, 0x26#8), (.zpx, 0x36#8), (.abs, 0x2E#8), (.abx, 0x3E#8)] ∧
  HasForms .ror [(.acc, 0x6A#8), (.zp, 0x66#8), (.zpx, 0x76#8), (.abs, 0x6E#8), (.abx, 0x7E#8)] ∧
  ∀ (i : Instr) (st : State), i.mnemonic ∈ [.asl, .lsr, .rol, .ror] →
    (i.operand = .acc → ∃ r out p', shiftResult i.mnemonic st.a (getFlag .c st.p) = some (r, out) ∧
      exec i st = .next { st with a := BitVec.ofNat 8 r, p := p' } ∧
      FlagsWritten st.p p' [(.c, out), (.z, decide (r = 0)), (.n, decide (128 ≤ r))]) ∧
    (i.operand ≠ .acc → ∃ m ea, i.operand = .mem m ∧ effAddr m st = .ok ea ∧
      (∀ v, busLoad ea st = .ok v → ea.toNat ≤ 0x1FFF →
        ∃ r out p', shiftResult i.mnemonic v (getFlag .c st.p) = some (r, out) ∧
        exec i st = .next { st with ram := Memory.set st.ram (ea.toNat % 0x0800) (BitVec.ofNat 8 r), p := p' } ∧
        FlagsWritten st.p p' [(.c, out), (.z, decide (r = 0)), (.n, decide (128 ≤ r))]) ∧
      (0x8000 ≤ ea.toNat → exec i st = .fault (.readOnlyWrite ea)) ∧
      (∀ f, busLoad ea st = .error f → exec i st = .fault f))

/-- ROL and ROR are rotations of the nine bits of C and the operand, inverse to each other (43_logic_shift.md R186, R187). -/
def Obligations.RotatesAreInverse : Prop :=
  ∀ st : State,
    (∃ t u, exec .rolAcc st = .next t ∧ exec .rorAcc t = .next u ∧ u.a = st.a ∧
      getFlag .c u.p = getFlag .c st.p) ∧
    (∃ t u, exec .rorAcc st = .next t ∧ exec .rolAcc t = .next u ∧ u.a = st.a ∧
      getFlag .c u.p = getFlag .c st.p)

/-! ## Control transfer -/

/-- The eight branches: taken on their flag's value, to the address after the branch plus the signed displacement modulo
65536; not taken, nothing changes (44_branch_jump.md R198, R200 to R207). -/
def Obligations.BranchesResult : Prop :=
  HasForms .bcc [(.rel, 0x90#8)] ∧ HasForms .bcs [(.rel, 0xB0#8)] ∧ HasForms .beq [(.rel, 0xF0#8)] ∧
  HasForms .bne [(.rel, 0xD0#8)] ∧ HasForms .bmi [(.rel, 0x30#8)] ∧ HasForms .bpl [(.rel, 0x10#8)] ∧
  HasForms .bvc [(.rel, 0x50#8)] ∧ HasForms .bvs [(.rel, 0x70#8)] ∧
  ∀ (i : Instr) (st : State) (f : Flag) (b : Bool), branchCondition i.mnemonic = some (f, b) →
    ∃ d, i.operand = .rel d ∧
      (getFlag f st.p = b →
        exec i st = .next { st with pc := BitVec.ofInt 16 ((st.pc.toNat : Int) + d.toInt) }) ∧
      (getFlag f st.p ≠ b → exec i st = .next st)

/-- JMP in both its forms: `pc` only; the indirect pointer's high byte comes from the next address, with no page wrap
(44_branch_jump.md R208). -/
def Obligations.JmpResult : Prop :=
  HasForms .jmp [(.abs, 0x4C#8), (.ind, 0x6C#8)] ∧
  ∀ (w : Word) (st : State),
    exec (.jmpAbs w) st = .next { st with pc := w } ∧
    (∀ lo hi, busLoad w st = .ok lo → busLoad (w + 1#16) st = .ok hi →
      exec (.jmpInd w) st = .next { st with pc := wordOf hi lo }) ∧
    (∀ f, busLoad w st = .error f → exec (.jmpInd w) st = .fault f) ∧
    (∀ lo f, busLoad w st = .ok lo → busLoad (w + 1#16) st = .error f → exec (.jmpInd w) st = .fault f)

/-- JSR pushes the address of its own last byte, high byte first, and jumps (44_branch_jump.md R209). -/
def Obligations.JsrResult : Prop :=
  HasForms .jsr [(.abs, 0x20#8)] ∧
  ∀ (w : Word) (st : State), exec (.jsr w) st = .next { st with
    ram := Memory.set (Memory.set st.ram (0x100 + st.s.toNat) (hi8 (st.pc - 1#16)))
      (0x100 + (st.s - 1#8).toNat) (lo8 (st.pc - 1#16))
    s := st.s - 2#8
    pc := w }

/-- RTS pulls a word and adds one (44_branch_jump.md R210). -/
def Obligations.RtsResult : Prop :=
  HasForms .rts [(.imp, 0x60#8)] ∧
  ∀ st : State, exec .rts st = .next { st with
    s := st.s + 2#8
    pc := wordOf (Memory.get st.ram (0x100 + (st.s + 2#8).toNat)) (Memory.get st.ram (0x100 + (st.s + 1#8).toNat)) + 1#16 }

/-- JSR and then RTS, wherever the RTS lies, resume after the JSR with `S` as it was (44_branch_jump.md R210;
95_test_vectors.md S8). -/
def Obligations.JsrThenRtsResumes : Prop :=
  ∀ (w after : Word) (st : State), ∃ t, exec (.jsr w) st = .next t ∧ t.pc = w ∧
    exec .rts { t with pc := after } = .next { t with s := st.s, pc := st.pc }

/-! ## Stack, flags, system -/

/-- PHA and PHP: one byte at the slot of `S`, `P` pushed as it is, `S` one less, nothing else (45_stack_flag_system.md R220,
R222). -/
def Obligations.PushesResult : Prop :=
  HasForms .pha [(.imp, 0x48#8)] ∧ HasForms .php [(.imp, 0x08#8)] ∧
  ∀ st : State,
    exec .pha st = .next { st with ram := Memory.set st.ram (0x100 + st.s.toNat) st.a, s := st.s - 1#8 } ∧
    exec .php st = .next { st with ram := Memory.set st.ram (0x100 + st.s.toNat) st.p, s := st.s - 1#8 }

/-- PLA and PLP: the byte above `S`; PLA sets Z and N, PLP loads all eight bits (45_stack_flag_system.md R221, R223). -/
def Obligations.PullsResult : Prop :=
  HasForms .pla [(.imp, 0x68#8)] ∧ HasForms .plp [(.imp, 0x28#8)] ∧
  ∀ (st : State) (v : Byte), v = Memory.get st.ram (0x100 + (st.s + 1#8).toNat) →
    exec .pla st = .next { st with a := v, s := st.s + 1#8, p := setZN v st.p } ∧
    exec .plp st = .next { st with s := st.s + 1#8, p := v }

/-- PHP and then PLP restore `P` and `S` exactly, whatever `P` became in between (45_stack_flag_system.md R223). -/
def Obligations.PhpThenPlpRestores : Prop :=
  ∀ (st : State) (q : Byte), ∃ t, exec .php st = .next t ∧
    exec .plp { t with p := q } = .next { st with ram := t.ram }

/-- The seven flag instructions each write one flag, at its bit of 10_state.md R26, and nothing else
(45_stack_flag_system.md R224 to R230). -/
def Obligations.FlagInstructionsResult : Prop :=
  HasForms .clc [(.imp, 0x18#8)] ∧ HasForms .sec [(.imp, 0x38#8)] ∧ HasForms .cli [(.imp, 0x58#8)] ∧
  HasForms .sei [(.imp, 0x78#8)] ∧ HasForms .clv [(.imp, 0xB8#8)] ∧ HasForms .cld [(.imp, 0xD8#8)] ∧
  HasForms .sed [(.imp, 0xF8#8)] ∧
  ∀ st : State,
    (exec .clc st = .next { st with p := st.p &&& 0xFE#8 } ∧ FlagsWritten st.p (st.p &&& 0xFE#8) [(.c, false)]) ∧
    (exec .sec st = .next { st with p := st.p ||| 0x01#8 } ∧ FlagsWritten st.p (st.p ||| 0x01#8) [(.c, true)]) ∧
    (exec .cli st = .next { st with p := st.p &&& 0xFB#8 } ∧ FlagsWritten st.p (st.p &&& 0xFB#8) [(.i, false)]) ∧
    (exec .sei st = .next { st with p := st.p ||| 0x04#8 } ∧ FlagsWritten st.p (st.p ||| 0x04#8) [(.i, true)]) ∧
    (exec .clv st = .next { st with p := st.p &&& 0xBF#8 } ∧ FlagsWritten st.p (st.p &&& 0xBF#8) [(.v, false)]) ∧
    (exec .cld st = .next { st with p := st.p &&& 0xF7#8 } ∧ FlagsWritten st.p (st.p &&& 0xF7#8) [(.d, false)]) ∧
    (exec .sed st = .next { st with p := st.p ||| 0x08#8 } ∧ FlagsWritten st.p (st.p ||| 0x08#8) [(.d, true)])

/-- NOP does nothing: `exec` runs with `pc` already past it, and the step that fetches it only moves `pc` by one
(45_stack_flag_system.md R231). -/
def Obligations.NopResult : Prop :=
  HasForms .nop [(.imp, 0xEA#8)] ∧
  ∀ st : State, exec .nop st = .next st ∧
    (st.status = .running → busLoad st.pc st = .ok 0xEA#8 → step st = .next { st with pc := st.pc + 1#16 })

/-- BRK: the return address two past the opcode, high byte first, then `P` with B set; B and I set; `pc` from the vector,
which always reads (45_stack_flag_system.md R232; 60_exceptions.md R249). -/
def Obligations.BrkResult : Prop :=
  HasForms .brk [(.imp, 0x00#8)] ∧
  ∀ st : State, ∃ lo hi pushed p', busLoad 0xFFFE#16 st = .ok lo ∧ busLoad 0xFFFF#16 st = .ok hi ∧
    FlagsWritten st.p pushed [(.b, true)] ∧ FlagsWritten st.p p' [(.b, true), (.i, true)] ∧
    exec .brk st = .next { st with
      ram := Memory.set (Memory.set (Memory.set st.ram (0x100 + st.s.toNat) (hi8 (st.pc + 1#16)))
        (0x100 + (st.s - 1#8).toNat) (lo8 (st.pc + 1#16))) (0x100 + (st.s - 2#8).toNat) pushed
      s := st.s - 3#8
      p := p'
      pc := wordOf hi lo }

/-- RTI: all eight bits of `P`, then `pc` low byte first, with no increment (45_stack_flag_system.md R233). -/
def Obligations.RtiResult : Prop :=
  HasForms .rti [(.imp, 0x40#8)] ∧
  ∀ st : State, exec .rti st = .next { st with
    p := Memory.get st.ram (0x100 + (st.s + 1#8).toNat)
    pc := wordOf (Memory.get st.ram (0x100 + (st.s + 3#8).toNat)) (Memory.get st.ram (0x100 + (st.s + 2#8).toNat))
    s := st.s + 3#8 }

/-- RTI undoes BRK but for B: `pc` is two past the BRK opcode, `S` is as before, `P` is as before with B set
(60_exceptions.md R250; 45_stack_flag_system.md R233). -/
def Obligations.BrkThenRtiResumes : Prop :=
  ∀ (st : State) (after : Word) (q : Byte), ∃ t p', exec .brk st = .next t ∧
    exec .rti { t with pc := after, p := q } = .next { t with s := st.s, pc := st.pc + 1#16, p := p' } ∧
    FlagsWritten st.p p' [(.b, true)]

/-! ## The step and the whole machine -/

/-- A step runs the decoded instruction: when the bytes at `pc` are those of an instruction, the step is its meaning on
the state with `pc` past them (40_engine_addressing.md R100, R124). -/
def Obligations.StepRunsDecoded : Prop :=
  ∀ (st : State) (bs : List Byte) (i : Instr), st.status = .running → loadBytes st.pc bs.length st = .ok bs →
    decode bs = .ok (i, []) → step st = exec i { st with pc := st.pc + BitVec.ofNat 16 bs.length }

/-- The opcode fetch faults first, then the operand fetches in address order (60_exceptions.md R247;
40_engine_addressing.md R101). -/
def Obligations.FetchFaultsEndTheStep : Prop :=
  ∀ (st : State) (f : Fault), st.status = .running →
    (busLoad st.pc st = .error f → step st = .fault f) ∧
    ∀ (op : Byte) (m : Mnemonic) (fmt : Format), busLoad st.pc st = .ok op → decodeByte op = some (m, fmt) →
      (1 ≤ fmt.operandBytes → busLoad (st.pc + 1#16) st = .error f → step st = .fault f) ∧
      (∀ lo, fmt.operandBytes = 2 → busLoad (st.pc + 1#16) st = .ok lo → busLoad (st.pc + 2#16) st = .error f →
        step st = .fault f)

/-- `Step()` is `Fetch8` and then `execute(opcode)` (40_engine_addressing.md R125; 70_reset_and_hazards.md R266). -/
def Obligations.StepIsFetchThenExecute : Prop :=
  ∀ (st : State) (op : Byte), st.status = .running → busLoad st.pc st = .ok op →
    step st = executeOpcode op { st with pc := st.pc + 1#16 }

/-- Every step keeps the invariant: RAM and the program image canonical and inside their sizes (10_state.md R30, R31). The
canonical form is the model's (log entry 1). -/
def Obligations.StepKeepsInvariant : Prop :=
  ∀ st t : State, st.Inv → step st = .next t → t.Inv

/-- The reset state meets the invariant. What its RAM and program image hold, and the canonical form, are the model's
choice (log entries 1 and 2). -/
def Obligations.ResetMeetsInvariant : Prop := State.reset.Inv

/-- No step changes a parameter, and a step that completes leaves the machine running (10_state.md R31, R35;
40_engine_addressing.md R100). That the parameters stand in State is the model's (log entry 5). -/
def Obligations.StepKeepsParameters : Prop :=
  ∀ st t : State, step st = .next t → t.params = st.params ∧ t.status = .running

/-- "No instruction other than those listed changes a flag" (10_state.md R27). -/
def Obligations.FlagFrame : Prop :=
  ∀ (i : Instr) (st t : State) (f : Flag), exec i st = .next t → i.mnemonic ∉ flagWriters f →
    getFlag f t.p = getFlag f st.p

/-- Each register is changed only by the instructions that 10_state.md R21 to R25 lists for it. -/
def Obligations.RegisterFrame : Prop :=
  ∀ (i : Instr) (st t : State), exec i st = .next t →
    (i.mnemonic ∉ [.lda, .txa, .tya, .pla, .adc, .sbc, .and, .ora, .eor] → i.operand ≠ .acc → t.a = st.a) ∧
    (i.mnemonic ∉ [.ldx, .tax, .tsx, .inx, .dex] → t.x = st.x) ∧
    (i.mnemonic ∉ [.ldy, .tay, .iny, .dey] → t.y = st.y) ∧
    (i.mnemonic ∉ [.txs, .pha, .php, .pla, .plp, .jsr, .rts, .brk, .rti] → t.s = st.s) ∧
    (branchCondition i.mnemonic = none → i.mnemonic ∉ [.jmp, .jsr, .rts, .brk, .rti] → t.pc = st.pc) ∧
    t.params = st.params ∧ t.status = st.status

/-- Every address that is no image of a byte the instruction stores to reads as before; an instruction that stores nothing
leaves every address (20_memory.md R62; 60_exceptions.md R242). `storedAddrs` computes the addresses. -/
def Obligations.MemoryFrame : Prop :=
  ∀ (i : Instr) (st t : State), exec i st = .next t →
    (∀ a : Word, (∀ b ∈ storedAddrs i st, ¬ SameRamByte b a) → busLoad a t = busLoad a st) ∧
    ∀ b ∈ storedAddrs i st, Writable b

/-- No instruction is refused; one that faults has a memory or indirect operand, and only the storing ones raise
ReadOnlyWrite (60_exceptions.md R242, R246; 70_reset_and_hazards.md R270). -/
def Obligations.FaultCauses : Prop :=
  (∀ (i : Instr) (st : State) (r : Refusal), exec i st ≠ .refused r) ∧
  (∀ (st : State) (r : Refusal), step st ≠ .refused r) ∧
  ∀ (i : Instr) (st : State) (f : Fault), exec i st = .fault f →
    ((∃ m, i.operand = .mem m) ∨ ∃ w, i.operand = .ind w) ∧
    (∀ a, f = .readOnlyWrite a → storesAtEa i.mnemonic = true ∧ 0x8000 ≤ a.toNat) ∧
    (∀ a, f = .mapperRange .write a → i.mnemonic ∈ [.sta, .stx, .sty]) ∧
    ∀ op a, f ≠ .unsupportedOpcode op a

/-- I, D, B and bit 5 are inert: outside the instructions that push `P` and those that write the flag (SEI and CLI for I,
SED and CLD for D, PLP, RTI, BRK), an instruction does the same thing whatever the flag is; so ADC and SBC ignore D (10_state.md R27, R28, R29;
42_arithmetic_compare.md R159; 60_exceptions.md R248). -/
def Obligations.InertFlags : Prop :=
  ∀ (i : Instr) (st : State) (f : Flag) (b : Bool), f ∈ [.i, .d, .b, .u] → i.mnemonic ∉ flagWriters f →
    i.mnemonic ∉ [.php, .brk] →
    (∀ t, exec i st = .next t →
      exec i { st with p := putFlag f b st.p } = .next { t with p := putFlag f b t.p }) ∧
    (∀ e, exec i st = .fault e → exec i { st with p := putFlag f b st.p } = .fault e)

/-! ## Creation, power-up, faulted machines -/

/-- Power-up from any state: A, X, Y zero, `S` 0xFD, I set and the other seven flags kept, `pc` from the reset vector, RAM
kept; with an override the vector is not read (70_reset_and_hazards.md R261, R262). -/
def Obligations.PowerUpResult : Prop :=
  ∀ (st : State) (w : Word), ∃ lo hi p', busLoad 0xFFFC#16 st = .ok lo ∧ busLoad 0xFFFD#16 st = .ok hi ∧
    FlagsWritten st.p p' [(.i, true)] ∧
    powerUp st = .ok { st with a := 0#8, x := 0#8, y := 0#8, s := 0xFD#8, p := p', pc := wordOf hi lo } ∧
    powerUpWithOverride w st = { st with a := 0#8, x := 0#8, y := 0#8, s := 0xFD#8, p := p', pc := w }

/-- Creation, and power-up directly after it, for every parameter and RAM0, and the registers of the reset state
(10_state.md R34; 70_reset_and_hazards.md R260, R261). The reset state's RAM and parameters are the model's choice (log
entries 1 to 4), and nothing is said of them here. -/
def Obligations.ResetValues : Prop :=
  (∀ (q : Params) (ram0 : List Host.Cell),
    create q ram0 =
      { a := 0x00#8, x := 0x00#8, y := 0x00#8, s := 0x00#8, pc := 0x0000#16, p := 0x00#8, ram := ram0,
        status := .running, params := q } ∧
    ∃ w, loadWord 0xFFFC#16 (create q ram0) = .ok w ∧ powerUp (create q ram0) = .ok
      { a := 0x00#8, x := 0x00#8, y := 0x00#8, s := 0xFD#8, pc := w, p := 0x04#8, ram := ram0, status := .running,
        params := q }) ∧
  State.reset.a = 0x00#8 ∧ State.reset.x = 0x00#8 ∧ State.reset.y = 0x00#8 ∧ State.reset.s = 0xFD#8 ∧
  State.reset.p = 0x04#8 ∧ State.reset.status = .running ∧
  loadWord 0xFFFC#16 State.reset = .ok State.reset.pc

/-- A fatal condition makes the machine Faulted with its cause, for good: no later step changes the state
(10_state.md R32; 60_exceptions.md R240, R255). That the step of a faulted machine answers the same fault again, and that
`tick` and `run` keep its state, is the model's reading (DEDUCED, log entry 7); the state a fault leaves is otherwise free
(log entry 8). -/
def Obligations.FaultedIsAbsorbing : Prop :=
  ∀ (st : State) (f : Fault) (n : Nat),
    (st.status = .running → step st = .fault f → (run (n + 1) st).status = .faulted f ∧ run (n + 1) st = tick st) ∧
    (st.status = .faulted f → step st = .fault f ∧ run n st = st)

/-- A run of `n + 1` steps that meets no fatal condition is a run of `n` such steps and then one completed step, with the
parameters of the start (40_engine_addressing.md R100; 70_reset_and_hazards.md R264). `run` keeps a faulted machine (log
entry 7) and the parameters stand in State (log entry 5) by the model's reading. -/
def Obligations.SafeRunIsCompletedSteps : Prop :=
  ∀ (n : Nat) (st : State), SafeFor (n + 1) st →
    SafeFor n st ∧ step (run n st) = .next (run (n + 1) st) ∧ (run (n + 1) st).params = st.params

/-- Mapper construction: too little PRG or CHR fails by name; otherwise the image reads back byte for byte
(20_memory.md R52). The model's choice are the error where both are too little, 'PRG incomplete' (log entry 14), and the
canonical form of the image (log entries 1, 2 and 10). -/
def Obligations.MapperConstruction : Prop :=
  ∀ (units : PrgUnits) (prg : List Byte) (chrUnits chrLength : Nat) (q : ZpPtrWrap),
    (prg.length < units.count * 16384 → buildMapper units prg chrUnits chrLength q = .error .prgIncomplete) ∧
    (units.count * 16384 ≤ prg.length → chrLength < chrUnits * 8192 →
      buildMapper units prg chrUnits chrLength q = .error .chrIncomplete) ∧
    (units.count * 16384 ≤ prg.length → chrUnits * 8192 ≤ chrLength →
      ∃ ps, buildMapper units prg chrUnits chrLength q = .ok ps ∧ ps.prgUnits = units ∧ ps.zpPtrWrap = q ∧
        (∀ k, k < units.count * 16384 → prg[k]? = some (Memory.get ps.prg k)) ∧
        Memory.wf ps.prg ∧ Memory.within ps.prg (prgSize ps))
end

