-- ==== Sys2Proof/Laws/Bits.lean ====
section
/-! SUPPORT. Slices, extensions and concatenation in terms of numbers (00_scope.md R9). -/

namespace Sys2Proof

theorem toNat_lo8 (w : Word) : (lo8 w).toNat = w.toNat % 256 := by
  simp [lo8]

theorem toNat_hi8 (w : Word) : (hi8 w).toNat = w.toNat / 256 := by
  have := w.isLt
  simp only [hi8, BitVec.extractLsb'_toNat, Nat.shiftRight_eq_div_pow]
  omega

/-- `{h, l} = h * 256 + l` (R9). -/
theorem toNat_wordOf (hi lo : Byte) : (wordOf hi lo).toNat = hi.toNat * 256 + lo.toNat := by
  simp only [wordOf, BitVec.toNat_append, Nat.shiftLeft_eq]
  rw [Nat.mul_comm, ← Nat.two_pow_add_eq_or_of_lt lo.isLt hi.toNat]

@[simp] theorem lo8_wordOf (hi lo : Byte) : lo8 (wordOf hi lo) = lo := by
  apply BitVec.eq_of_toNat_eq
  rw [toNat_lo8, toNat_wordOf]
  have := lo.isLt
  omega

@[simp] theorem hi8_wordOf (hi lo : Byte) : hi8 (wordOf hi lo) = hi := by
  apply BitVec.eq_of_toNat_eq
  rw [toNat_hi8, toNat_wordOf]
  have := lo.isLt
  omega

@[simp] theorem wordOf_hi8_lo8 (w : Word) : wordOf (hi8 w) (lo8 w) = w := by
  apply BitVec.eq_of_toNat_eq
  rw [toNat_wordOf, toNat_hi8, toNat_lo8]
  omega

@[simp] theorem toNat_zext16 (b : Byte) : (zext16 b).toNat = b.toNat := by
  have := b.isLt
  simp only [zext16, BitVec.truncate_eq_setWidth, BitVec.toNat_setWidth]
  omega

end Sys2Proof
end

