-- ==== Sys2Proof/Laws/Memory.lean ====
section
/-! SUPPORT. The laws of the sparse stores: read after write, and that a write keeps the canonical form. -/

namespace Sys2Proof.Machine.Memory

@[simp] theorem get_nil (i : Nat) : Memory.get [] i = unlisted := rfl

@[simp] theorem get_cons (c : Host.Cell) (m : Memory) (i : Nat) :
    Memory.get (c :: m) i = if c.1 = i then c.2 else Memory.get m i := rfl

/-- Reading a concatenation whose first part does not list the index. -/
theorem get_append_of_forall_ne (m n : Memory) (i : Nat) (h : ∀ c ∈ m, c.1 ≠ i) :
    Memory.get (m ++ n) i = Memory.get n i := by
  induction m with
  | nil => rfl
  | cons c m ih =>
    have hc := h c (by simp)
    simp only [List.cons_append, get_cons, hc, if_false]
    exact ih fun d hd => h d (by simp [hd])

/-- Reading a concatenation whose second part does not list the index. -/
theorem get_append_of_forall_ne_right (m n : Memory) (i : Nat) (h : ∀ c ∈ n, c.1 ≠ i) :
    Memory.get (m ++ n) i = Memory.get m i := by
  induction m with
  | nil => simpa using get_append_of_forall_ne n [] i h
  | cons c m ih => simp [ih]

/-- Dropping entries at other indexes does not change a read. -/
theorem get_filter (m : Memory) (q : Host.Cell → Bool) (i : Nat) (h : ∀ v, q (i, v) = true) :
    Memory.get (m.filter q) i = Memory.get m i := by
  induction m with
  | nil => rfl
  | cons c m ih =>
    obtain ⟨k, v⟩ := c
    by_cases hk : k = i
    · subst hk; simp [h]
    · by_cases hq : q (k, v) = true <;> simp [hq, hk, ih]

/-- A read after a write: the written byte there, the old byte everywhere else. -/
@[simp] theorem get_set (m : Memory) (i j : Nat) (v : Byte) :
    Memory.get (Memory.set m i v) j = if i = j then v else Memory.get m j := by
  unfold Memory.set
  rcases Nat.lt_trichotomy j i with hlt | rfl | hgt
  · have hne : i ≠ j := by omega
    rw [get_append_of_forall_ne_right _ _ _ (by simp; omega),
      get_append_of_forall_ne_right _ _ _ (by split <;> simp; omega), get_filter _ _ _ (by simpa using hlt)]
    simp [hne]
  · rw [List.append_assoc, get_append_of_forall_ne _ _ _ (by simp; omega)]
    split
    · rename_i hv
      simpa [hv] using get_append_of_forall_ne _ [] j (by simp; omega)
    · simp
  · have hne : i ≠ j := by omega
    rw [get_append_of_forall_ne _ _ _ ?_, get_filter _ _ _ (by simpa using hgt)]
    · simp [hne]
    · intro c hc
      rcases List.mem_append.1 hc with h | h
      · have := List.mem_filter.1 h
        simp at this; omega
      · revert h; split <;> simp
        rintro rfl; exact hne

/-- A write keeps the canonical form. -/
theorem wf_set {m : Memory} (h : Memory.wf m) (i : Nat) (v : Byte) : Memory.wf (Memory.set m i v) := by
  obtain ⟨hp, hv⟩ := h
  refine ⟨?_, ?_⟩
  · unfold Memory.set
    rw [List.pairwise_append, List.pairwise_append]
    refine ⟨⟨hp.filter _, by split <;> simp, ?_⟩, hp.filter _, ?_⟩
    · intro c hc d hd
      have := (List.mem_filter.1 hc).2
      revert hd; split <;> simp
      rintro rfl; simpa using this
    · intro c hc d hd
      have hd' := (List.mem_filter.1 hd).2
      simp at hd'
      rcases List.mem_append.1 hc with h | h
      · have := (List.mem_filter.1 h).2
        simp at this; omega
      · revert h; split <;> simp
        rintro rfl; exact hd'
  · unfold Memory.set
    intro c hc
    rcases List.mem_append.1 hc with h | h
    · rcases List.mem_append.1 h with h | h
      · exact hv c (List.mem_filter.1 h).1
      · revert h; split
        · simp
        · rename_i hne; simp; rintro rfl; exact hne
    · exact hv c (List.mem_filter.1 h).1

/-- A write inside a store stays inside it. -/
theorem within_set {m : Memory} {size : Nat} (h : Memory.within m size) {i : Nat} (hi : i < size) (v : Byte) :
    Memory.within (Memory.set m i v) size := by
  unfold Memory.set
  intro c hc
  rcases List.mem_append.1 hc with hc | hc
  · rcases List.mem_append.1 hc with hc | hc
    · exact h c (List.mem_filter.1 hc).1
    · revert hc; split <;> simp
      rintro rfl; exact hi
  · exact h c (List.mem_filter.1 hc).1

theorem wf_nil : Memory.wf [] := ⟨List.Pairwise.nil, by simp⟩

/-- Equal reads make equal canonical stores. -/
theorem eq_of_get_eq {m n : Memory} (hm : Memory.wf m) (hn : Memory.wf n)
    (h : ∀ i, Memory.get m i = Memory.get n i) : m = n := by
  induction m generalizing n with
  | nil =>
    cases n with
    | nil => rfl
    | cons d n =>
      have := h d.1
      simp at this
      exact absurd this.symm (hn.2 d (by simp))
  | cons c m ih =>
    cases n with
    | nil =>
      have := h c.1
      simp at this
      exact absurd this (hm.2 c (by simp))
    | cons d n =>
      obtain ⟨k, v⟩ := c
      obtain ⟨l, w⟩ := d
      obtain ⟨hmp, hmv⟩ := hm
      obtain ⟨hnp, hnv⟩ := hn
      rw [List.pairwise_cons] at hmp hnp
      have hk : k = l := by
        have absent : ∀ (m : Memory) (i : Nat), (∀ c ∈ m, i < c.1) → Memory.get m i = unlisted := fun m i hi => by
          have := get_append_of_forall_ne m [] i (fun c hc => by have := hi c hc; omega)
          simpa using this
        rcases Nat.lt_trichotomy k l with hlt | heq | hgt
        · have h1 := h k
          have hne : l ≠ k := by omega
          simp only [get_cons, if_true, hne, if_false] at h1
          rw [absent n k (fun c hc => by have := hnp.1 c hc; simp at this; omega)] at h1
          exact absurd h1 (hmv (k, v) (by simp))
        · exact heq
        · have h1 := h l
          have hne : k ≠ l := by omega
          simp only [get_cons, if_true, hne, if_false] at h1
          rw [absent m l (fun c hc => by have := hmp.1 c hc; simp at this; omega)] at h1
          exact absurd h1.symm (hnv (l, w) (by simp))
      subst hk
      have hv : v = w := by simpa using h k
      subst hv
      congr 1
      refine ih ⟨hmp.2, fun c hc => hmv c (by simp [hc])⟩ ⟨hnp.2, fun c hc => hnv c (by simp [hc])⟩ fun i => ?_
      by_cases hi : k = i
      · have absent : ∀ (m : Memory), (∀ c ∈ m, i < c.1) → Memory.get m i = unlisted := fun m hm => by
          have := get_append_of_forall_ne m [] i (fun c hc => by have := hm c hc; omega)
          simpa using this
        rw [absent m (fun c hc => by have := hmp.1 c hc; simp at this; omega),
          absent n (fun c hc => by have := hnp.1 c hc; simp at this; omega)]
      · simpa [hi] using h i

end Sys2Proof.Machine.Memory
end

