-- ==== Sys2Proof/Laws/State.lean ====
section
/-! SUPPORT. What each named update of State does to each field: one lemma per field per update. -/

namespace Sys2Proof.Machine.State

@[simp] theorem setA_a (st : State) (v : Byte) : (st.setA v).a = v := rfl
@[simp] theorem setA_x (st : State) (v : Byte) : (st.setA v).x = st.x := rfl
@[simp] theorem setA_y (st : State) (v : Byte) : (st.setA v).y = st.y := rfl
@[simp] theorem setA_s (st : State) (v : Byte) : (st.setA v).s = st.s := rfl
@[simp] theorem setA_pc (st : State) (v : Byte) : (st.setA v).pc = st.pc := rfl
@[simp] theorem setA_p (st : State) (v : Byte) : (st.setA v).p = st.p := rfl
@[simp] theorem setA_ram (st : State) (v : Byte) : (st.setA v).ram = st.ram := rfl
@[simp] theorem setA_status (st : State) (v : Byte) : (st.setA v).status = st.status := rfl
@[simp] theorem setA_params (st : State) (v : Byte) : (st.setA v).params = st.params := rfl

@[simp] theorem setX_a (st : State) (v : Byte) : (st.setX v).a = st.a := rfl
@[simp] theorem setX_x (st : State) (v : Byte) : (st.setX v).x = v := rfl
@[simp] theorem setX_y (st : State) (v : Byte) : (st.setX v).y = st.y := rfl
@[simp] theorem setX_s (st : State) (v : Byte) : (st.setX v).s = st.s := rfl
@[simp] theorem setX_pc (st : State) (v : Byte) : (st.setX v).pc = st.pc := rfl
@[simp] theorem setX_p (st : State) (v : Byte) : (st.setX v).p = st.p := rfl
@[simp] theorem setX_ram (st : State) (v : Byte) : (st.setX v).ram = st.ram := rfl
@[simp] theorem setX_status (st : State) (v : Byte) : (st.setX v).status = st.status := rfl
@[simp] theorem setX_params (st : State) (v : Byte) : (st.setX v).params = st.params := rfl

@[simp] theorem setY_a (st : State) (v : Byte) : (st.setY v).a = st.a := rfl
@[simp] theorem setY_x (st : State) (v : Byte) : (st.setY v).x = st.x := rfl
@[simp] theorem setY_y (st : State) (v : Byte) : (st.setY v).y = v := rfl
@[simp] theorem setY_s (st : State) (v : Byte) : (st.setY v).s = st.s := rfl
@[simp] theorem setY_pc (st : State) (v : Byte) : (st.setY v).pc = st.pc := rfl
@[simp] theorem setY_p (st : State) (v : Byte) : (st.setY v).p = st.p := rfl
@[simp] theorem setY_ram (st : State) (v : Byte) : (st.setY v).ram = st.ram := rfl
@[simp] theorem setY_status (st : State) (v : Byte) : (st.setY v).status = st.status := rfl
@[simp] theorem setY_params (st : State) (v : Byte) : (st.setY v).params = st.params := rfl

@[simp] theorem setS_a (st : State) (v : Byte) : (st.setS v).a = st.a := rfl
@[simp] theorem setS_x (st : State) (v : Byte) : (st.setS v).x = st.x := rfl
@[simp] theorem setS_y (st : State) (v : Byte) : (st.setS v).y = st.y := rfl
@[simp] theorem setS_s (st : State) (v : Byte) : (st.setS v).s = v := rfl
@[simp] theorem setS_pc (st : State) (v : Byte) : (st.setS v).pc = st.pc := rfl
@[simp] theorem setS_p (st : State) (v : Byte) : (st.setS v).p = st.p := rfl
@[simp] theorem setS_ram (st : State) (v : Byte) : (st.setS v).ram = st.ram := rfl
@[simp] theorem setS_status (st : State) (v : Byte) : (st.setS v).status = st.status := rfl
@[simp] theorem setS_params (st : State) (v : Byte) : (st.setS v).params = st.params := rfl

@[simp] theorem setPc_a (st : State) (v : Word) : (st.setPc v).a = st.a := rfl
@[simp] theorem setPc_x (st : State) (v : Word) : (st.setPc v).x = st.x := rfl
@[simp] theorem setPc_y (st : State) (v : Word) : (st.setPc v).y = st.y := rfl
@[simp] theorem setPc_s (st : State) (v : Word) : (st.setPc v).s = st.s := rfl
@[simp] theorem setPc_pc (st : State) (v : Word) : (st.setPc v).pc = v := rfl
@[simp] theorem setPc_p (st : State) (v : Word) : (st.setPc v).p = st.p := rfl
@[simp] theorem setPc_ram (st : State) (v : Word) : (st.setPc v).ram = st.ram := rfl
@[simp] theorem setPc_status (st : State) (v : Word) : (st.setPc v).status = st.status := rfl
@[simp] theorem setPc_params (st : State) (v : Word) : (st.setPc v).params = st.params := rfl

@[simp] theorem setP_a (st : State) (v : Byte) : (st.setP v).a = st.a := rfl
@[simp] theorem setP_x (st : State) (v : Byte) : (st.setP v).x = st.x := rfl
@[simp] theorem setP_y (st : State) (v : Byte) : (st.setP v).y = st.y := rfl
@[simp] theorem setP_s (st : State) (v : Byte) : (st.setP v).s = st.s := rfl
@[simp] theorem setP_pc (st : State) (v : Byte) : (st.setP v).pc = st.pc := rfl
@[simp] theorem setP_p (st : State) (v : Byte) : (st.setP v).p = v := rfl
@[simp] theorem setP_ram (st : State) (v : Byte) : (st.setP v).ram = st.ram := rfl
@[simp] theorem setP_status (st : State) (v : Byte) : (st.setP v).status = st.status := rfl
@[simp] theorem setP_params (st : State) (v : Byte) : (st.setP v).params = st.params := rfl

@[simp] theorem setRam_a (st : State) (v : List Host.Cell) : (st.setRam v).a = st.a := rfl
@[simp] theorem setRam_x (st : State) (v : List Host.Cell) : (st.setRam v).x = st.x := rfl
@[simp] theorem setRam_y (st : State) (v : List Host.Cell) : (st.setRam v).y = st.y := rfl
@[simp] theorem setRam_s (st : State) (v : List Host.Cell) : (st.setRam v).s = st.s := rfl
@[simp] theorem setRam_pc (st : State) (v : List Host.Cell) : (st.setRam v).pc = st.pc := rfl
@[simp] theorem setRam_p (st : State) (v : List Host.Cell) : (st.setRam v).p = st.p := rfl
@[simp] theorem setRam_ram (st : State) (v : List Host.Cell) : (st.setRam v).ram = v := rfl
@[simp] theorem setRam_status (st : State) (v : List Host.Cell) : (st.setRam v).status = st.status := rfl
@[simp] theorem setRam_params (st : State) (v : List Host.Cell) : (st.setRam v).params = st.params := rfl

@[simp] theorem setStatus_a (st : State) (v : RunStatus) : (st.setStatus v).a = st.a := rfl
@[simp] theorem setStatus_x (st : State) (v : RunStatus) : (st.setStatus v).x = st.x := rfl
@[simp] theorem setStatus_y (st : State) (v : RunStatus) : (st.setStatus v).y = st.y := rfl
@[simp] theorem setStatus_s (st : State) (v : RunStatus) : (st.setStatus v).s = st.s := rfl
@[simp] theorem setStatus_pc (st : State) (v : RunStatus) : (st.setStatus v).pc = st.pc := rfl
@[simp] theorem setStatus_p (st : State) (v : RunStatus) : (st.setStatus v).p = st.p := rfl
@[simp] theorem setStatus_ram (st : State) (v : RunStatus) : (st.setStatus v).ram = st.ram := rfl
@[simp] theorem setStatus_status (st : State) (v : RunStatus) : (st.setStatus v).status = v := rfl
@[simp] theorem setStatus_params (st : State) (v : RunStatus) : (st.setStatus v).params = st.params := rfl

@[simp] theorem setParams_a (st : State) (v : Params) : (st.setParams v).a = st.a := rfl
@[simp] theorem setParams_x (st : State) (v : Params) : (st.setParams v).x = st.x := rfl
@[simp] theorem setParams_y (st : State) (v : Params) : (st.setParams v).y = st.y := rfl
@[simp] theorem setParams_s (st : State) (v : Params) : (st.setParams v).s = st.s := rfl
@[simp] theorem setParams_pc (st : State) (v : Params) : (st.setParams v).pc = st.pc := rfl
@[simp] theorem setParams_p (st : State) (v : Params) : (st.setParams v).p = st.p := rfl
@[simp] theorem setParams_ram (st : State) (v : Params) : (st.setParams v).ram = st.ram := rfl
@[simp] theorem setParams_status (st : State) (v : Params) : (st.setParams v).status = st.status := rfl
@[simp] theorem setParams_params (st : State) (v : Params) : (st.setParams v).params = v := rfl

@[simp] theorem flagZN_a (st : State) (v : Byte) : (st.flagZN v).a = st.a := rfl
@[simp] theorem flagZN_x (st : State) (v : Byte) : (st.flagZN v).x = st.x := rfl
@[simp] theorem flagZN_y (st : State) (v : Byte) : (st.flagZN v).y = st.y := rfl
@[simp] theorem flagZN_s (st : State) (v : Byte) : (st.flagZN v).s = st.s := rfl
@[simp] theorem flagZN_pc (st : State) (v : Byte) : (st.flagZN v).pc = st.pc := rfl
@[simp] theorem flagZN_p (st : State) (v : Byte) : (st.flagZN v).p = setZN v st.p := rfl
@[simp] theorem flagZN_ram (st : State) (v : Byte) : (st.flagZN v).ram = st.ram := rfl
@[simp] theorem flagZN_status (st : State) (v : Byte) : (st.flagZN v).status = st.status := rfl
@[simp] theorem flagZN_params (st : State) (v : Byte) : (st.flagZN v).params = st.params := rfl

@[simp] theorem putA_a (st : State) (v : Byte) : (st.putA v).a = v := rfl
@[simp] theorem putA_x (st : State) (v : Byte) : (st.putA v).x = st.x := rfl
@[simp] theorem putA_y (st : State) (v : Byte) : (st.putA v).y = st.y := rfl
@[simp] theorem putA_s (st : State) (v : Byte) : (st.putA v).s = st.s := rfl
@[simp] theorem putA_pc (st : State) (v : Byte) : (st.putA v).pc = st.pc := rfl
@[simp] theorem putA_p (st : State) (v : Byte) : (st.putA v).p = setZN v st.p := rfl
@[simp] theorem putA_ram (st : State) (v : Byte) : (st.putA v).ram = st.ram := rfl
@[simp] theorem putA_status (st : State) (v : Byte) : (st.putA v).status = st.status := rfl
@[simp] theorem putA_params (st : State) (v : Byte) : (st.putA v).params = st.params := rfl

@[simp] theorem putX_a (st : State) (v : Byte) : (st.putX v).a = st.a := rfl
@[simp] theorem putX_x (st : State) (v : Byte) : (st.putX v).x = v := rfl
@[simp] theorem putX_y (st : State) (v : Byte) : (st.putX v).y = st.y := rfl
@[simp] theorem putX_s (st : State) (v : Byte) : (st.putX v).s = st.s := rfl
@[simp] theorem putX_pc (st : State) (v : Byte) : (st.putX v).pc = st.pc := rfl
@[simp] theorem putX_p (st : State) (v : Byte) : (st.putX v).p = setZN v st.p := rfl
@[simp] theorem putX_ram (st : State) (v : Byte) : (st.putX v).ram = st.ram := rfl
@[simp] theorem putX_status (st : State) (v : Byte) : (st.putX v).status = st.status := rfl
@[simp] theorem putX_params (st : State) (v : Byte) : (st.putX v).params = st.params := rfl

@[simp] theorem putY_a (st : State) (v : Byte) : (st.putY v).a = st.a := rfl
@[simp] theorem putY_x (st : State) (v : Byte) : (st.putY v).x = st.x := rfl
@[simp] theorem putY_y (st : State) (v : Byte) : (st.putY v).y = v := rfl
@[simp] theorem putY_s (st : State) (v : Byte) : (st.putY v).s = st.s := rfl
@[simp] theorem putY_pc (st : State) (v : Byte) : (st.putY v).pc = st.pc := rfl
@[simp] theorem putY_p (st : State) (v : Byte) : (st.putY v).p = setZN v st.p := rfl
@[simp] theorem putY_ram (st : State) (v : Byte) : (st.putY v).ram = st.ram := rfl
@[simp] theorem putY_status (st : State) (v : Byte) : (st.putY v).status = st.status := rfl
@[simp] theorem putY_params (st : State) (v : Byte) : (st.putY v).params = st.params := rfl

@[simp] theorem putFlag_a (st : State) (f : Flag) (b : Bool) : (st.putFlag f b).a = st.a := rfl
@[simp] theorem putFlag_x (st : State) (f : Flag) (b : Bool) : (st.putFlag f b).x = st.x := rfl
@[simp] theorem putFlag_y (st : State) (f : Flag) (b : Bool) : (st.putFlag f b).y = st.y := rfl
@[simp] theorem putFlag_s (st : State) (f : Flag) (b : Bool) : (st.putFlag f b).s = st.s := rfl
@[simp] theorem putFlag_pc (st : State) (f : Flag) (b : Bool) : (st.putFlag f b).pc = st.pc := rfl
@[simp] theorem putFlag_p (st : State) (f : Flag) (b : Bool) : (st.putFlag f b).p = Machine.putFlag f b st.p := rfl
@[simp] theorem putFlag_ram (st : State) (f : Flag) (b : Bool) : (st.putFlag f b).ram = st.ram := rfl
@[simp] theorem putFlag_status (st : State) (f : Flag) (b : Bool) : (st.putFlag f b).status = st.status := rfl
@[simp] theorem putFlag_params (st : State) (f : Flag) (b : Bool) : (st.putFlag f b).params = st.params := rfl

/-- Two states are equal when their fields are. -/
theorem eq_of_fields {s t : State} (ha : s.a = t.a) (hx : s.x = t.x) (hy : s.y = t.y) (hs : s.s = t.s)
    (hpc : s.pc = t.pc) (hp : s.p = t.p) (hram : s.ram = t.ram) (hst : s.status = t.status)
    (hpar : s.params = t.params) : s = t := by
  cases s; cases t; simp_all

end Sys2Proof.Machine.State
end

