-- ==== Sys2Proof/Laws/Bus.lean ====
section
/-! SUPPORT. Everything one bus access can do (20_memory.md R42 to R59). -/

namespace Sys2Proof.Machine

@[simp] theorem except_ok_bind {α β : Type} (a : α) (k : α → Except Fault β) :
    ((Except.ok a : Except Fault α) >>= k) = k a := rfl

@[simp] theorem except_error_bind {α β : Type} (f : Fault) (k : α → Except Fault β) :
    ((Except.error f : Except Fault α) >>= k) = Except.error f := rfl

@[simp] theorem except_pure {α : Type} (a : α) : (pure a : Except Fault α) = Except.ok a := rfl

/-- A sequence that succeeds has a first part that succeeds. -/
theorem bind_eq_ok {α β : Type} {r : Except Fault α} {k : α → Except Fault β} {b : β} :
    (r >>= k) = .ok b ↔ ∃ a, r = .ok a ∧ k a = .ok b := by
  cases r <;> simp

/-- A sequence that fails does so in its first part or after it. -/
theorem bind_eq_error {α β : Type} {r : Except Fault α} {k : α → Except Fault β} {f : Fault} :
    (r >>= k) = .error f ↔ r = .error f ∨ ∃ a, r = .ok a ∧ k a = .error f := by
  cases r <;> simp

@[simp] theorem finish_ok (t : State) : finish (.ok t) = .next t := rfl

@[simp] theorem finish_error (f : Fault) : finish (.error f) = .fault f := rfl

theorem finish_eq_next {r : Except Fault State} {t : State} : finish r = .next t ↔ r = .ok t := by
  cases r <;> simp [finish]

theorem finish_eq_fault {r : Except Fault State} {f : Fault} : finish r = .fault f ↔ r = .error f := by
  cases r <;> simp [finish]

/-! ## The decoder -/

theorem busTarget_ram {a : Word} (h : a.toNat < 0x2000) : busTarget a = .ram (a.toNat % 0x800) := by
  have : a.toNat ≤ 0x1FFF := by omega
  simp [busTarget, this]

theorem busTarget_ppu {a : Word} (h : 0x2000 ≤ a.toNat) (h2 : a.toNat ≤ 0x3FFF) :
    busTarget a = .unimplemented .ppu := by
  have : ¬ a.toNat ≤ 0x1FFF := by omega
  simp [busTarget, this, h2]

theorem busTarget_apuIo {a : Word} (h : 0x4000 ≤ a.toNat) (h2 : a.toNat ≤ 0x401F) :
    busTarget a = .unimplemented .apuIo := by
  have h1 : ¬ a.toNat ≤ 0x1FFF := by omega
  have h3 : ¬ a.toNat ≤ 0x3FFF := by omega
  simp [busTarget, h1, h2, h3]

theorem busTarget_cartridge {a : Word} (h : 0x4020 ≤ a.toNat) : busTarget a = .cartridge := by
  have h1 : ¬ a.toNat ≤ 0x1FFF := by omega
  have h2 : ¬ a.toNat ≤ 0x3FFF := by omega
  have h3 : ¬ a.toNat ≤ 0x401F := by omega
  simp [busTarget, h1, h2, h3]

/-! ## Loads -/

/-- A load of RAM (20_memory.md R43). -/
theorem busLoad_ram {a : Word} (h : a.toNat < 0x2000) (st : State) :
    busLoad a st = .ok (Memory.get st.ram (a.toNat % 0x800)) := by
  simp [busLoad, busTarget_ram h]

/-- A load of PRG (20_memory.md R53). -/
theorem busLoad_prg {a : Word} (h : 0x8000 ≤ a.toNat) (st : State) :
    busLoad a st = .ok (Memory.get st.params.prg (prgOffset st.params.prgUnits a)) := by
  have h1 : ¬ a.toNat < 0x8000 := by omega
  simp [busLoad, busTarget_cartridge (a := a) (by omega), mapperLoad, h1]

/-- A load succeeds exactly at a readable address. -/
theorem busLoad_ok_iff (a : Word) (st : State) : (∃ v, busLoad a st = .ok v) ↔ Readable a := by
  constructor
  · rintro ⟨v, hv⟩
    by_contra hn
    simp only [Readable, not_or, not_lt, not_le] at hn
    by_cases h1 : a.toNat ≤ 0x3FFF
    · simp [busLoad, busTarget_ppu hn.1 h1] at hv
    · by_cases h2 : a.toNat ≤ 0x401F
      · simp [busLoad, busTarget_apuIo (a := a) (by omega) h2] at hv
      · simp [busLoad, busTarget_cartridge (a := a) (by omega), mapperLoad, hn.2] at hv
  · rintro (h | h)
    · exact ⟨_, busLoad_ram h st⟩
    · exact ⟨_, busLoad_prg h st⟩

/-- What a load answers depends on RAM and the parameters only. -/
theorem busLoad_congr {s t : State} (hr : s.ram = t.ram) (hq : s.params = t.params) (a : Word) :
    busLoad a s = busLoad a t := by
  simp [busLoad, mapperLoad, hr, hq]

@[simp] theorem busLoad_setA (a : Word) (st : State) (v : Byte) : busLoad a (st.setA v) = busLoad a st := rfl
@[simp] theorem busLoad_setX (a : Word) (st : State) (v : Byte) : busLoad a (st.setX v) = busLoad a st := rfl
@[simp] theorem busLoad_setY (a : Word) (st : State) (v : Byte) : busLoad a (st.setY v) = busLoad a st := rfl
@[simp] theorem busLoad_setS (a : Word) (st : State) (v : Byte) : busLoad a (st.setS v) = busLoad a st := rfl
@[simp] theorem busLoad_setPc (a : Word) (st : State) (w : Word) : busLoad a (st.setPc w) = busLoad a st := rfl
@[simp] theorem busLoad_setP (a : Word) (st : State) (v : Byte) : busLoad a (st.setP v) = busLoad a st := rfl
@[simp] theorem busLoad_setStatus (a : Word) (st : State) (r : RunStatus) :
    busLoad a (st.setStatus r) = busLoad a st := rfl
@[simp] theorem busLoad_putFlag (a : Word) (st : State) (f : Flag) (b : Bool) :
    busLoad a (st.putFlag f b) = busLoad a st := rfl

/-! ## Stores -/

/-- A store to RAM (20_memory.md R43). -/
theorem busStore_ram {a : Word} (h : a.toNat < 0x2000) (v : Byte) (st : State) :
    busStore a v st = .ok (st.setRam (Memory.set st.ram (a.toNat % 0x800) v)) := by
  simp [busStore, busTarget_ram h]

/-- Everything a store that succeeds can do. -/
theorem busStore_eq_ok {a : Word} {v : Byte} {s t : State} :
    busStore a v s = .ok t ↔ a.toNat < 0x2000 ∧ t = s.setRam (Memory.set s.ram (a.toNat % 0x800) v) := by
  constructor
  · intro h
    by_cases h0 : a.toNat < 0x2000
    · rw [busStore_ram h0] at h
      exact ⟨h0, by simpa using h.symm⟩
    · exfalso
      by_cases h1 : a.toNat ≤ 0x3FFF
      · simp [busStore, busTarget_ppu (a := a) (by omega) h1] at h
      · by_cases h2 : a.toNat ≤ 0x401F
        · simp [busStore, busTarget_apuIo (a := a) (by omega) h2] at h
        · simp [busStore, busTarget_cartridge (a := a) (by omega)] at h
  · rintro ⟨h, rfl⟩
    exact busStore_ram h v s

/-- A load after a store to RAM. -/
theorem busLoad_setRam_set {a : Word} (ha : a.toNat < 0x2000) (b : Word) (v : Byte) (st : State) :
    busLoad b (st.setRam (Memory.set st.ram (a.toNat % 0x800) v)) =
      if SameRamByte a b then .ok v else busLoad b st := by
  by_cases hb : b.toNat < 0x2000
  · rw [busLoad_ram hb, busLoad_ram hb]
    by_cases heq : a.toNat % 0x800 = b.toNat % 0x800 <;> simp [SameRamByte, ha, hb, heq]
  · have hn : ¬ SameRamByte a b := fun h => hb h.2.1
    rw [if_neg hn]
    by_cases h8 : 0x8000 ≤ b.toNat
    · rw [busLoad_prg h8, busLoad_prg h8]; rfl
    · simp only [busLoad]
      by_cases h1 : b.toNat ≤ 0x3FFF
      · rw [busTarget_ppu (by omega) h1]
      · by_cases h2 : b.toNat ≤ 0x401F
        · rw [busTarget_apuIo (by omega) h2]
        · rw [busTarget_cartridge (by omega)]; rfl

end Sys2Proof.Machine
end

