-- ==== Sys2Proof/Laws/Decode.lean ====
section
/-! SUPPORT. The opcode map and the opcode of each instruction agree in both directions (30_encoding.md R86, R87). -/

namespace Sys2Proof

/-- Complete an entry with exactly the operand bytes it awaits. -/
def Entry.follow : Entry → List Byte → Option Instr
  | .done i, [] => some i
  | .byte f, [b] => some (f b)
  | .word f, [lo, hi] => some (f (wordOf hi lo))
  | _, _ => none

/-- The opcode byte of an instruction selects its entry, and its operand bytes complete it. -/
theorem opcodeEntry_opcode (i : Instr) :
    (opcodeEntry (opcode i)).bind (fun e => e.follow i.operand.bytes) = some i := by
  cases i <;> simp only [opcode, Instr.operand, Operand.bytes, MemMode.bytes] <;>
    first | rfl | exact congrArg some (congrArg _ (wordOf_hi8_lo8 _))

/-- Whatever an opcode byte's entry makes has that opcode byte and those operand bytes. -/
theorem opcodeEntry_sound (op : Byte) (e : Entry) (h : opcodeEntry op = some e) :
    match e with
    | .done i => opcode i = op ∧ i.operand.bytes = []
    | .byte f => ∀ b, opcode (f b) = op ∧ (f b).operand.bytes = [b]
    | .word f => ∀ w, opcode (f w) = op ∧ (f w).operand.bytes = [lo8 w, hi8 w] := by
  unfold opcodeEntry at h
  split at h
  all_goals
    rename_i hop
    first
    | (cases h; done)
    | (replace hop := congrArg (BitVec.ofNat 8) hop
       rw [BitVec.ofNat_toNat, BitVec.setWidth_eq] at hop
       cases h
       subst hop
       first | exact ⟨rfl, rfl⟩ | exact fun _ => ⟨rfl, rfl⟩)

/-- A format's operand bytes are as many as its row says (30_encoding.md R81). -/
@[simp] theorem length_bytes (o : Operand) : o.bytes.length = o.format.operandBytes := by
  cases o <;> first | rfl | (rename_i m; cases m <;> rfl)

/-- The entry of an opcode byte awaits as many bytes as its format says (30_encoding.md R81). -/
theorem opcodeEntry_of_decodeByte {op : Byte} {m : Mnemonic} {fmt : Format} (h : decodeByte op = some (m, fmt)) :
    ∃ e, opcodeEntry op = some e ∧
      match e with
      | .done _ => fmt.operandBytes = 0
      | .byte _ => fmt.operandBytes = 1
      | .word _ => fmt.operandBytes = 2 := by
  obtain ⟨e, he, hq⟩ := Option.map_eq_some_iff.1 h
  refine ⟨e, he, ?_⟩
  simp only [Prod.mk.injEq] at hq
  have hs := opcodeEntry_sound op e he
  rw [← hq.2, ← length_bytes]
  cases e with
  | done i => simp [Entry.sample, hs.2]
  | byte f => simp only [Entry.sample, (hs _).2, List.length_cons, List.length_nil]
  | word f => simp only [Entry.sample, (hs _).2, List.length_cons, List.length_nil]

/-- The opcode byte of an instruction names its mnemonic and its format (30_encoding.md R83, R87). -/
theorem decodeByte_opcode (i : Instr) : decodeByte (opcode i) = some (i.mnemonic, i.operand.format) := by
  cases i <;> simp only [opcode, Instr.mnemonic, Instr.operand, Operand.format, MemMode.format] <;> decide

namespace Machine

/-- The check, on one opcode byte, that a mnemonic's forms are the listed ones. -/
def formsOk (m : Mnemonic) (forms : List (Format × Byte)) (op : Byte) : Bool :=
  match decodeByte op with
  | none => true
  | some (k, fmt) => if k = m then decide ((fmt, op) ∈ forms) else true

/-- The forms of a mnemonic are read off the opcode map. -/
theorem hasForms_of_formsOk {m : Mnemonic} {forms : List (Format × Byte)} (h : ∀ op, formsOk m forms op = true)
    (hd : ∀ q ∈ forms, decodeByte q.2 = some (m, q.1)) : HasForms m forms := by
  refine ⟨fun i hi => ?_, hd⟩
  have := h (opcode i)
  simpa [formsOk, decodeByte_opcode, hi] using this

end Machine

end Sys2Proof
end

