-- ==== Sys2Proof/Laws/Operands.lean ====
section
/-! SUPPORT. The operand resolvers, and everything each shape of instruction can do. -/

namespace Sys2Proof.Machine

/-- The two lines of 40_engine_addressing.md R113, one for each setting. -/
theorem zpPtrHighAddr_wrap (p : Byte) : zpPtrHighAddr .wrap p = zext16 (p + 1#8) := by
  unfold zpPtrHighAddr
  split
  · rename_i h; subst h; rfl
  · rfl

theorem zpPtrHighAddr_nowrap (p : Byte) : zpPtrHighAddr .nowrap p = zext16 p + 1#16 := by
  unfold zpPtrHighAddr
  split
  · rename_i h; subst h; rfl
  · rename_i h
    have hp : p.toNat ≠ 255 := fun hp => h (BitVec.eq_of_toNat_eq (by simpa using hp))
    have := p.isLt
    apply BitVec.eq_of_toNat_eq
    simp only [toNat_zext16, BitVec.toNat_add, BitVec.toNat_ofNat]
    omega

/-- The high byte of a zero-page pointer lies in RAM, at 0x0100 at most. -/
theorem zpPtrHighAddr_lt (q : ZpPtrWrap) (p : Byte) : (zpPtrHighAddr q p).toNat < 0x800 := by
  unfold zpPtrHighAddr
  split
  · cases q <;> decide
  · have := (p + 1#8).isLt
    rw [toNat_zext16]; omega

/-- A zero-page pointer always reads (40_engine_addressing.md R113). -/
theorem zpPtrRead_eq (p : Byte) (st : State) :
    zpPtrRead p st = .ok (wordOf (Memory.get st.ram (zpPtrHighAddr st.params.zpPtrWrap p).toNat)
      (Memory.get st.ram p.toNat)) := by
  have h1 := zpPtrHighAddr_lt st.params.zpPtrWrap p
  have h2 := p.isLt
  have h3 : (zext16 p).toNat < 0x2000 := by rw [toNat_zext16]; omega
  have h4 : p.toNat % 0x800 = p.toNat := by omega
  have h5 : (zpPtrHighAddr st.params.zpPtrWrap p).toNat % 0x800 = (zpPtrHighAddr st.params.zpPtrWrap p).toNat := by
    omega
  simp [zpPtrRead, busLoad_ram h3, busLoad_ram (a := zpPtrHighAddr st.params.zpPtrWrap p) (by omega), h4, h5]

/-- Resolving a memory operand never faults: only JMP's indirect pointer can lie outside RAM. -/
theorem effAddr_ok (m : MemMode) (st : State) : ∃ ea, effAddr m st = .ok ea := by
  cases m <;> simp [effAddr, zpPtrRead_eq]

/-- An effective address depends on X, Y, RAM and the parameters only. -/
theorem effAddr_congr {s t : State} (hx : s.x = t.x) (hy : s.y = t.y) (hr : s.ram = t.ram) (hq : s.params = t.params)
    (m : MemMode) : effAddr m s = effAddr m t := by
  cases m <;> simp [effAddr, zpPtrRead_eq, hx, hy, hr, hq]

theorem readSource_congr {s t : State} (hx : s.x = t.x) (hy : s.y = t.y) (hr : s.ram = t.ram)
    (hq : s.params = t.params) (src : Source) : readSource src s = readSource src t := by
  cases src with
  | imm v => rfl
  | mem m => simp [readSource, effAddr_congr hx hy hr hq m, busLoad_congr hr hq]

/-- An instruction that reads its operand: its effect where the read succeeds, the read's fault where it does not. -/
theorem withSource_ok {src : Source} {st : State} {v : Byte} (h : readSource src st = .ok v)
    (effect : Byte → State → State) : withSource src effect st = .next (effect v st) := by
  simp [withSource, h]

theorem withSource_error {src : Source} {st : State} {f : Fault} (h : readSource src st = .error f)
    (effect : Byte → State → State) : withSource src effect st = .fault f := by
  simp [withSource, h]

theorem withSource_eq_next {src : Source} {effect : Byte → State → State} {s t : State} :
    withSource src effect s = .next t ↔ ∃ v, readSource src s = .ok v ∧ t = effect v s := by
  unfold withSource
  cases readSource src s <;> simp [eq_comm]

theorem withSource_eq_fault {src : Source} {effect : Byte → State → State} {s : State} {f : Fault} :
    withSource src effect s = .fault f ↔ readSource src s = .error f := by
  unfold withSource
  cases readSource src s <;> simp

/-- A store instruction: RAM changes at the effective address, nothing else does. -/
theorem storeAt_eq_next {m : MemMode} {v : Byte} {s t : State} :
    storeAt m v s = .next t ↔
      ∃ ea, effAddr m s = .ok ea ∧ Writable ea ∧ t = s.setRam (Memory.set s.ram (ea.toNat % 0x800) v) := by
  simp [storeAt, finish_eq_next, bind_eq_ok, busStore_eq_ok]

/-- A read-modify-write: RAM changes at the effective address, `P` is the new status byte, nothing else changes. -/
theorem modifyAt_eq_next {m : MemMode} {f : Byte → Byte → Byte × Byte} {s t : State} :
    modifyAt m f s = .next t ↔
      ∃ ea v, effAddr m s = .ok ea ∧ Writable ea ∧ busLoad ea s = .ok v ∧
        t = (s.setRam (Memory.set s.ram (ea.toNat % 0x800) (f v s.p).1)).setP (f v s.p).2 := by
  simp only [modifyAt, finish_eq_next, bind_eq_ok, busStore_eq_ok, except_pure, Except.ok.injEq]
  constructor
  · rintro ⟨ea, he, v, hv, u, ⟨hw, rfl⟩, rfl⟩
    exact ⟨ea, v, he, hw, hv, rfl⟩
  · rintro ⟨ea, v, he, hw, hv, rfl⟩
    exact ⟨ea, he, v, hv, _, ⟨hw, rfl⟩, rfl⟩

end Sys2Proof.Machine
end

