-- ==== Sys2Proof/Laws/Stack.lean ====
section
/-! SUPPORT. The stack primitives in closed form: none of them can fault (40_engine_addressing.md R120 to R123). -/

namespace Sys2Proof.Machine

/-- The RAM index of a stack slot, `RAM[0x100 + S]` (40_engine_addressing.md R120). -/
def stackIndex (sp : Byte) : Nat := 0x100 + sp.toNat

theorem toNat_stackAddr (sp : Byte) : (stackAddr sp).toNat = stackIndex sp := by
  have h := sp.isLt
  have key := Nat.two_pow_add_eq_or_of_lt (i := 8) h 1
  simp only [stackAddr, stackIndex, BitVec.toNat_or, toNat_zext16]
  rw [show (Config.stackPage : Word).toNat = 2 ^ 8 * 1 from rfl, ← key]

theorem stackAddr_writable (sp : Byte) : (stackAddr sp).toNat < 0x2000 := by
  have := sp.isLt
  rw [toNat_stackAddr, stackIndex]; omega

theorem stackAddr_mod (sp : Byte) : (stackAddr sp).toNat % 0x800 = stackIndex sp := by
  have := sp.isLt
  rw [toNat_stackAddr, stackIndex]; omega

theorem stackIndex_inj {p q : Byte} : stackIndex p = stackIndex q ↔ p = q := by
  constructor
  · intro h
    apply BitVec.eq_of_toNat_eq
    simp only [stackIndex] at h; omega
  · rintro rfl; rfl

/-- The bytes of the stack page are distinct: two slots are the same byte only when they are the same slot. -/
theorem sameRamByte_stackAddr {p q : Byte} : SameRamByte (stackAddr p) (stackAddr q) ↔ p = q := by
  simp [SameRamByte, stackAddr_mod, stackAddr_writable, stackIndex_inj]

theorem push8_eq (v : Byte) (st : State) :
    push8 v st = .ok ((st.setRam (Memory.set st.ram (stackIndex st.s) v)).setS (st.s - 1#8)) := by
  simp [push8, busStore_ram (stackAddr_writable st.s), stackAddr_mod]

theorem pull8_eq (st : State) :
    pull8 st = .ok (Memory.get st.ram (stackIndex (st.s + 1#8)), st.setS (st.s + 1#8)) := by
  simp [pull8, busLoad_ram (stackAddr_writable _), stackAddr_mod]

theorem push16_eq (w : Word) (st : State) :
    push16 w st = .ok ((st.setRam (Memory.set (Memory.set st.ram (stackIndex st.s) (hi8 w))
      (stackIndex (st.s - 1#8)) (lo8 w))).setS (st.s - 2#8)) := by
  have h : st.s - 1#8 - 1#8 = st.s - 2#8 := by bv_omega
  simp only [push16, push8_eq, except_ok_bind, State.setS_s, State.setS_ram, State.setRam_ram, h]
  rfl

theorem pull16_eq (st : State) :
    pull16 st = .ok (wordOf (Memory.get st.ram (stackIndex (st.s + 2#8))) (Memory.get st.ram (stackIndex (st.s + 1#8))),
      st.setS (st.s + 2#8)) := by
  have h : st.s + 1#8 + 1#8 = st.s + 2#8 := by bv_omega
  simp only [pull16, pull8_eq, except_ok_bind, except_pure, State.setS_s, State.setS_ram, h]
  rfl

end Sys2Proof.Machine
end

