-- ==== Sys2Proof/Laws/Power.lean ====
section
/-! SUPPORT. The trap entry and return, and power-up, in closed form: none of them can fault, since the stack page is RAM
and the vectors are PRG (45_stack_flag_system.md R219; 70_reset_and_hazards.md R261). -/

namespace Sys2Proof.Machine

/-- The word at an address in the PRG window whose next address is in it too. -/
def prgWord (addr : Word) (q : Params) : Word :=
  wordOf (Memory.get q.prg (prgOffset q.prgUnits (addr + 1#16))) (Memory.get q.prg (prgOffset q.prgUnits addr))

theorem loadWord_prg {a : Word} (h : 0x8000 ≤ a.toNat) (h1 : 0x8000 ≤ (a + 1#16).toNat) (st : State) :
    loadWord a st = .ok (prgWord a st.params) := by
  simp [loadWord, busLoad_prg h, busLoad_prg h1, prgWord]

theorem enterTrap_eq (st : State) :
    enterTrap st = .ok { st with
      ram := Memory.set (Memory.set (Memory.set st.ram (stackIndex st.s) (hi8 (st.pc + 1#16)))
        (stackIndex (st.s - 1#8)) (lo8 (st.pc + 1#16))) (stackIndex (st.s - 2#8)) (putFlag .b true st.p)
      s := st.s - 3#8
      p := putFlag .i true (putFlag .b true st.p)
      pc := prgWord Config.brkVector st.params } := by
  have h : st.s - 2#8 - 1#8 = st.s - 3#8 := by bv_omega
  simp only [enterTrap, push16_eq, push8_eq, except_ok_bind, except_pure,
    loadWord_prg (a := Config.brkVector) (by decide) (by decide), State.setS_s, State.setS_p, State.setRam_p,
    State.setRam_ram, State.setS_ram, State.putFlag_p, State.putFlag_s, State.putFlag_ram, State.putFlag_params,
    State.setS_params, State.setRam_params, h]
  rfl

theorem returnFromTrap_eq (st : State) :
    returnFromTrap st = .ok { st with
      p := Memory.get st.ram (stackIndex (st.s + 1#8))
      pc := wordOf (Memory.get st.ram (stackIndex (st.s + 3#8))) (Memory.get st.ram (stackIndex (st.s + 2#8)))
      s := st.s + 3#8 } := by
  have h1 : st.s + 1#8 + 2#8 = st.s + 3#8 := by bv_omega
  have h2 : st.s + 1#8 + 1#8 = st.s + 2#8 := by bv_omega
  simp only [returnFromTrap, pull8_eq, pull16_eq, except_ok_bind, except_pure, State.setP_s, State.setP_ram,
    State.setS_s, State.setS_ram, h1, h2]
  rfl

theorem powerUp_eq (st : State) :
    powerUp st = .ok { st with
      a := 0x00#8, x := 0x00#8, y := 0x00#8, s := 0xFD#8, p := putFlag .i true st.p
      pc := prgWord Config.resetVector st.params } := by
  simp only [powerUp, loadWord_prg (a := Config.resetVector) (by decide) (by decide), except_ok_bind, except_pure]
  rfl

/-- The reset state is what power-up makes of the created machine. -/
theorem powerUp_create_atReset : powerUp (create Params.atReset []) = .ok State.reset := by
  rw [powerUp_eq]; rfl

end Sys2Proof.Machine
end

