-- ==== Sys2Proof/Laws/Exec.lean ====
section
/-! SUPPORT. `exec` by the shape of the instruction: reading, storing, read-modify-write, branching; and the closed forms
of the stack instructions. A proof over all instructions cites these and not the 151 meanings. -/

namespace Sys2Proof.Machine

/-- What each reading mnemonic does with its operand value. -/
def readEffect : Mnemonic → Option (Byte → State → State)
  | .lda => some fun m t => t.putA m
  | .ldx => some fun m t => t.putX m
  | .ldy => some fun m t => t.putY m
  | .adc => some fun m t => (t.setA (addWithCarry t.a m t.p).1).setP (addWithCarry t.a m t.p).2
  | .sbc => some fun m t => (t.setA (subWithCarry t.a m t.p).1).setP (subWithCarry t.a m t.p).2
  | .cmp => some fun m t => t.setP (compareFlags t.a m t.p)
  | .cpx => some fun m t => t.setP (compareFlags t.x m t.p)
  | .cpy => some fun m t => t.setP (compareFlags t.y m t.p)
  | .and => some fun m t => t.putA (t.a &&& m)
  | .ora => some fun m t => t.putA (t.a ||| m)
  | .eor => some fun m t => t.putA (t.a ^^^ m)
  | .bit => some fun m t => t.setP (bitFlags t.a m t.p)
  | _ => none

/-- The byte each store mnemonic stores. -/
def storeValue : Mnemonic → Option (State → Byte)
  | .sta => some State.a
  | .stx => some State.x
  | .sty => some State.y
  | _ => none

/-- The function of each read-modify-write mnemonic. -/
def modifyFn : Mnemonic → Option (Byte → Byte → Byte × Byte)
  | .inc => some incByte
  | .dec => some decByte
  | .asl => some aslByte
  | .lsr => some lsrByte
  | .rol => some rolByte
  | .ror => some rorByte
  | _ => none

theorem exec_read {i : Instr} {e : Byte → State → State} (h : readEffect i.mnemonic = some e) :
    ∃ src : Source, i.operand = src.operand ∧ ∀ st, exec i st = withSource src e st := by
  cases i <;> first
    | (cases h; done)
    | (cases h
       first
       | exact ⟨.imm _, rfl, fun _ => rfl⟩
       | exact ⟨.mem _, rfl, fun _ => rfl⟩)

theorem exec_store {i : Instr} {g : State → Byte} (h : storeValue i.mnemonic = some g) :
    ∃ m, i.operand = .mem m ∧ ∀ st, exec i st = storeAt m (g st) st := by
  cases i <;> first
    | (cases h; done)
    | (cases h; exact ⟨_, rfl, fun _ => rfl⟩)

theorem exec_modify {i : Instr} {f : Byte → Byte → Byte × Byte} (h : modifyFn i.mnemonic = some f) :
    (i.operand = .acc ∧ ∀ st, exec i st = modifyA f st) ∨
      ∃ m, i.operand = .mem m ∧ ∀ st, exec i st = modifyAt m f st := by
  cases i <;> first
    | (cases h; done)
    | (cases h
       first
       | exact .inl ⟨rfl, fun _ => rfl⟩
       | exact .inr ⟨_, rfl, fun _ => rfl⟩)

theorem exec_branch {i : Instr} {f : Flag} {b : Bool} (h : branchCondition i.mnemonic = some (f, b)) :
    ∃ d, i.operand = .rel d ∧ ∀ st, exec i st = branchOn f b d st := by
  cases i <;> first
    | (cases h; done)
    | (cases h; exact ⟨_, rfl, fun _ => rfl⟩)

/-- The instructions without an operand, but for the accumulator forms of the shifts. -/
def impliedInstrs : List Instr :=
  [.tax, .tay, .txa, .tya, .tsx, .txs, .inx, .iny, .dex, .dey] ++
  [.rts, .pha, .pla, .php, .plp, .clc, .sec, .cli, .sei, .clv, .cld, .sed, .nop, .brk, .rti]

/-- The shape of an instruction, for a proof over all of them. -/
inductive Shape (i : Instr) : Prop
  | read (e : Byte → State → State) (h : readEffect i.mnemonic = some e)
  | store (g : State → Byte) (h : storeValue i.mnemonic = some g)
  | modify (f : Byte → Byte → Byte × Byte) (h : modifyFn i.mnemonic = some f)
  | branch (q : Flag × Bool) (h : branchCondition i.mnemonic = some q)
  | implied (h : i ∈ impliedInstrs)
  | jmpAbs (w : Word) (h : i = .jmpAbs w)
  | jmpInd (w : Word) (h : i = .jmpInd w)
  | jsr (w : Word) (h : i = .jsr w)

theorem exec_shape (i : Instr) : Shape i := by
  cases i <;> first
    | exact .read _ rfl
    | exact .store _ rfl
    | exact .modify _ rfl
    | exact .branch _ rfl
    | exact .jmpAbs _ rfl
    | exact .jmpInd _ rfl
    | exact .jsr _ rfl
    | exact .implied (by decide)

/-! ## Closed forms of the stack instructions -/

theorem exec_pha (st : State) :
    exec .pha st = .next ((st.setRam (Memory.set st.ram (stackIndex st.s) st.a)).setS (st.s - 1#8)) := by
  simp [exec, execPha, push8_eq]

theorem exec_php (st : State) :
    exec .php st = .next ((st.setRam (Memory.set st.ram (stackIndex st.s) st.p)).setS (st.s - 1#8)) := by
  simp [exec, execPhp, push8_eq]

theorem exec_pla (st : State) :
    exec .pla st = .next ((st.setS (st.s + 1#8)).putA (Memory.get st.ram (stackIndex (st.s + 1#8)))) := by
  simp [exec, execPla, pull8_eq]

theorem exec_plp (st : State) :
    exec .plp st = .next ((st.setS (st.s + 1#8)).setP (Memory.get st.ram (stackIndex (st.s + 1#8)))) := by
  simp [exec, execPlp, pull8_eq]

theorem exec_jsr (w : Word) (st : State) :
    exec (.jsr w) st = .next (((st.setRam (Memory.set (Memory.set st.ram (stackIndex st.s) (hi8 (st.pc - 1#16)))
      (stackIndex (st.s - 1#8)) (lo8 (st.pc - 1#16)))).setS (st.s - 2#8)).setPc w) := by
  simp [exec, execJsr, push16_eq]

theorem exec_rts (st : State) :
    exec .rts st = .next ((st.setS (st.s + 2#8)).setPc (wordOf (Memory.get st.ram (stackIndex (st.s + 2#8)))
      (Memory.get st.ram (stackIndex (st.s + 1#8))) + 1#16)) := by
  simp [exec, execRts, pull16_eq]

theorem exec_brk (st : State) :
    exec .brk st = .next { st with
      ram := Memory.set (Memory.set (Memory.set st.ram (stackIndex st.s) (hi8 (st.pc + 1#16)))
        (stackIndex (st.s - 1#8)) (lo8 (st.pc + 1#16))) (stackIndex (st.s - 2#8)) (putFlag .b true st.p)
      s := st.s - 3#8
      p := putFlag .i true (putFlag .b true st.p)
      pc := prgWord Config.brkVector st.params } := by
  simp [exec, execBrk, enterTrap_eq]

theorem exec_rti (st : State) :
    exec .rti st = .next { st with
      p := Memory.get st.ram (stackIndex (st.s + 1#8))
      pc := wordOf (Memory.get st.ram (stackIndex (st.s + 3#8))) (Memory.get st.ram (stackIndex (st.s + 2#8)))
      s := st.s + 3#8 } := by
  simp [exec, execRti, returnFromTrap_eq]

/-- JMP through a pointer: the word there, or the fault of the first of the two loads that faults. -/
theorem exec_jmpInd (w : Word) (st : State) :
    exec (.jmpInd w) st = finish (loadWord w st >>= fun ea => .ok (st.setPc ea)) := rfl

end Sys2Proof.Machine
end

