-- ==== Sys2Proof/Laws/Flags.lean ====
section
/-! SUPPORT. What each flag computation does to each of the eight bits of `P`. -/

namespace Sys2Proof.Machine

/-- A status byte is its eight flags. -/
theorem eq_of_flags {p q : Byte} (h : ∀ f, getFlag f p = getFlag f q) : p = q := by
  apply BitVec.eq_of_getLsbD_eq
  intro i hi
  match i, hi with
  | 0, _ => exact h .c
  | 1, _ => exact h .z
  | 2, _ => exact h .i
  | 3, _ => exact h .d
  | 4, _ => exact h .b
  | 5, _ => exact h .u
  | 6, _ => exact h .v
  | 7, _ => exact h .n

/-- Comparing flags, for the look-ups of `FlagsWritten`. -/
@[simp] theorem flag_beq (f g : Flag) : (f == g) = decide (f = g) := by cases f <;> cases g <;> rfl

/-- Writing a flag writes only that bit (00_scope.md R10). -/
@[simp] theorem getFlag_putFlag (f g : Flag) (b : Bool) (p : Byte) :
    getFlag f (putFlag g b p) = if f = g then b else getFlag f p := by
  cases b <;> cases f <;> cases g <;> simp [getFlag, putFlag, Flag.mask, Flag.index]

/-- `SetZN` writes Z and N (40_engine_addressing.md R118). -/
@[simp] theorem getFlag_setZN (f : Flag) (v p : Byte) :
    getFlag f (setZN v p) =
      if f = .n then v.getLsbD 7 else if f = .z then (v == 0x00#8) else getFlag f p := by
  simp [setZN]

/-- What ADC does to each flag (42_arithmetic_compare.md R160). -/
theorem getFlag_addWithCarry (f : Flag) (a m p : Byte) :
    getFlag f (addWithCarry a m p).2 =
      (let r := (addWithCarry a m p).1
       match f with
       | .c => decide (0xFF < addSum a m (getFlag .c p))
       | .z => r == 0x00#8
       | .v => addOverflow a m r
       | .n => r.getLsbD 7
       | _ => getFlag f p) := by
  cases f <;> simp [addWithCarry]

/-- What a compare does to each flag (42_arithmetic_compare.md R162). -/
theorem getFlag_compareFlags (f : Flag) (reg m p : Byte) :
    getFlag f (compareFlags reg m p) =
      match f with
      | .c => decide (m.toNat ≤ reg.toNat)
      | .z => reg - m == 0x00#8
      | .n => (reg - m).getLsbD 7
      | _ => getFlag f p := by
  cases f <;> simp [compareFlags]

/-- What BIT does to each flag (43_logic_shift.md R183). -/
theorem getFlag_bitFlags (f : Flag) (a m p : Byte) :
    getFlag f (bitFlags a m p) =
      match f with
      | .z => a &&& m == 0x00#8
      | .v => m.getLsbD 6
      | .n => m.getLsbD 7
      | _ => getFlag f p := by
  cases f <;> simp [bitFlags]

/-- What a shift does to each flag (43_logic_shift.md R184 to R187). -/
theorem getFlag_shiftFlags (f : Flag) (out : Bool) (r p : Byte) :
    getFlag f (shiftFlags out r p) =
      match f with
      | .c => out
      | .z => r == 0x00#8
      | .n => r.getLsbD 7
      | _ => getFlag f p := by
  cases f <;> simp [shiftFlags]

end Sys2Proof.Machine
end

