-- ==== Sys2Proof/Laws/PerInstr.lean ====
section
/-! SUPPORT. What holds of every instruction as syntax, one lemma per constructor: its opcode byte names its mnemonic and its
format (30_encoding.md R83, R87), and the mnemonic exists in that format. -/

namespace Sys2Proof.Laws.Encoding

/-- The opcode byte of the instruction decodes to its own mnemonic and format, and it is well-formed. -/
def Statement (i : Instr) : Prop :=
  decodeByte (opcode i) = some (i.mnemonic, i.operand.format) ∧ i.wf = true

theorem ldaImm (v : Byte) : Statement (.ldaImm v) := ⟨decodeByte_opcode _, rfl⟩
theorem ldaZp (z : Byte) : Statement (.ldaZp z) := ⟨decodeByte_opcode _, rfl⟩
theorem ldaZpx (z : Byte) : Statement (.ldaZpx z) := ⟨decodeByte_opcode _, rfl⟩
theorem ldaAbs (w : Word) : Statement (.ldaAbs w) := ⟨decodeByte_opcode _, rfl⟩
theorem ldaAbx (w : Word) : Statement (.ldaAbx w) := ⟨decodeByte_opcode _, rfl⟩
theorem ldaAby (w : Word) : Statement (.ldaAby w) := ⟨decodeByte_opcode _, rfl⟩
theorem ldaIzx (z : Byte) : Statement (.ldaIzx z) := ⟨decodeByte_opcode _, rfl⟩
theorem ldaIzy (z : Byte) : Statement (.ldaIzy z) := ⟨decodeByte_opcode _, rfl⟩
theorem ldxImm (v : Byte) : Statement (.ldxImm v) := ⟨decodeByte_opcode _, rfl⟩
theorem ldxZp (z : Byte) : Statement (.ldxZp z) := ⟨decodeByte_opcode _, rfl⟩
theorem ldxZpy (z : Byte) : Statement (.ldxZpy z) := ⟨decodeByte_opcode _, rfl⟩
theorem ldxAbs (w : Word) : Statement (.ldxAbs w) := ⟨decodeByte_opcode _, rfl⟩
theorem ldxAby (w : Word) : Statement (.ldxAby w) := ⟨decodeByte_opcode _, rfl⟩
theorem ldyImm (v : Byte) : Statement (.ldyImm v) := ⟨decodeByte_opcode _, rfl⟩
theorem ldyZp (z : Byte) : Statement (.ldyZp z) := ⟨decodeByte_opcode _, rfl⟩
theorem ldyZpx (z : Byte) : Statement (.ldyZpx z) := ⟨decodeByte_opcode _, rfl⟩
theorem ldyAbs (w : Word) : Statement (.ldyAbs w) := ⟨decodeByte_opcode _, rfl⟩
theorem ldyAbx (w : Word) : Statement (.ldyAbx w) := ⟨decodeByte_opcode _, rfl⟩
theorem staZp (z : Byte) : Statement (.staZp z) := ⟨decodeByte_opcode _, rfl⟩
theorem staZpx (z : Byte) : Statement (.staZpx z) := ⟨decodeByte_opcode _, rfl⟩
theorem staAbs (w : Word) : Statement (.staAbs w) := ⟨decodeByte_opcode _, rfl⟩
theorem staAbx (w : Word) : Statement (.staAbx w) := ⟨decodeByte_opcode _, rfl⟩
theorem staAby (w : Word) : Statement (.staAby w) := ⟨decodeByte_opcode _, rfl⟩
theorem staIzx (z : Byte) : Statement (.staIzx z) := ⟨decodeByte_opcode _, rfl⟩
theorem staIzy (z : Byte) : Statement (.staIzy z) := ⟨decodeByte_opcode _, rfl⟩
theorem stxZp (z : Byte) : Statement (.stxZp z) := ⟨decodeByte_opcode _, rfl⟩
theorem stxZpy (z : Byte) : Statement (.stxZpy z) := ⟨decodeByte_opcode _, rfl⟩
theorem stxAbs (w : Word) : Statement (.stxAbs w) := ⟨decodeByte_opcode _, rfl⟩
theorem styZp (z : Byte) : Statement (.styZp z) := ⟨decodeByte_opcode _, rfl⟩
theorem styZpx (z : Byte) : Statement (.styZpx z) := ⟨decodeByte_opcode _, rfl⟩
theorem styAbs (w : Word) : Statement (.styAbs w) := ⟨decodeByte_opcode _, rfl⟩
theorem tax : Statement .tax := ⟨decodeByte_opcode _, rfl⟩
theorem tay : Statement .tay := ⟨decodeByte_opcode _, rfl⟩
theorem txa : Statement .txa := ⟨decodeByte_opcode _, rfl⟩
theorem tya : Statement .tya := ⟨decodeByte_opcode _, rfl⟩
theorem tsx : Statement .tsx := ⟨decodeByte_opcode _, rfl⟩
theorem txs : Statement .txs := ⟨decodeByte_opcode _, rfl⟩
theorem adcImm (v : Byte) : Statement (.adcImm v) := ⟨decodeByte_opcode _, rfl⟩
theorem adcZp (z : Byte) : Statement (.adcZp z) := ⟨decodeByte_opcode _, rfl⟩
theorem adcZpx (z : Byte) : Statement (.adcZpx z) := ⟨decodeByte_opcode _, rfl⟩
theorem adcAbs (w : Word) : Statement (.adcAbs w) := ⟨decodeByte_opcode _, rfl⟩
theorem adcAbx (w : Word) : Statement (.adcAbx w) := ⟨decodeByte_opcode _, rfl⟩
theorem adcAby (w : Word) : Statement (.adcAby w) := ⟨decodeByte_opcode _, rfl⟩
theorem adcIzx (z : Byte) : Statement (.adcIzx z) := ⟨decodeByte_opcode _, rfl⟩
theorem adcIzy (z : Byte) : Statement (.adcIzy z) := ⟨decodeByte_opcode _, rfl⟩
theorem sbcImm (v : Byte) : Statement (.sbcImm v) := ⟨decodeByte_opcode _, rfl⟩
theorem sbcZp (z : Byte) : Statement (.sbcZp z) := ⟨decodeByte_opcode _, rfl⟩
theorem sbcZpx (z : Byte) : Statement (.sbcZpx z) := ⟨decodeByte_opcode _, rfl⟩
theorem sbcAbs (w : Word) : Statement (.sbcAbs w) := ⟨decodeByte_opcode _, rfl⟩
theorem sbcAbx (w : Word) : Statement (.sbcAbx w) := ⟨decodeByte_opcode _, rfl⟩
theorem sbcAby (w : Word) : Statement (.sbcAby w) := ⟨decodeByte_opcode _, rfl⟩
theorem sbcIzx (z : Byte) : Statement (.sbcIzx z) := ⟨decodeByte_opcode _, rfl⟩
theorem sbcIzy (z : Byte) : Statement (.sbcIzy z) := ⟨decodeByte_opcode _, rfl⟩
theorem cmpImm (v : Byte) : Statement (.cmpImm v) := ⟨decodeByte_opcode _, rfl⟩
theorem cmpZp (z : Byte) : Statement (.cmpZp z) := ⟨decodeByte_opcode _, rfl⟩
theorem cmpZpx (z : Byte) : Statement (.cmpZpx z) := ⟨decodeByte_opcode _, rfl⟩
theorem cmpAbs (w : Word) : Statement (.cmpAbs w) := ⟨decodeByte_opcode _, rfl⟩
theorem cmpAbx (w : Word) : Statement (.cmpAbx w) := ⟨decodeByte_opcode _, rfl⟩
theorem cmpAby (w : Word) : Statement (.cmpAby w) := ⟨decodeByte_opcode _, rfl⟩
theorem cmpIzx (z : Byte) : Statement (.cmpIzx z) := ⟨decodeByte_opcode _, rfl⟩
theorem cmpIzy (z : Byte) : Statement (.cmpIzy z) := ⟨decodeByte_opcode _, rfl⟩
theorem cpxImm (v : Byte) : Statement (.cpxImm v) := ⟨decodeByte_opcode _, rfl⟩
theorem cpxZp (z : Byte) : Statement (.cpxZp z) := ⟨decodeByte_opcode _, rfl⟩
theorem cpxAbs (w : Word) : Statement (.cpxAbs w) := ⟨decodeByte_opcode _, rfl⟩
theorem cpyImm (v : Byte) : Statement (.cpyImm v) := ⟨decodeByte_opcode _, rfl⟩
theorem cpyZp (z : Byte) : Statement (.cpyZp z) := ⟨decodeByte_opcode _, rfl⟩
theorem cpyAbs (w : Word) : Statement (.cpyAbs w) := ⟨decodeByte_opcode _, rfl⟩
theorem incZp (z : Byte) : Statement (.incZp z) := ⟨decodeByte_opcode _, rfl⟩
theorem incZpx (z : Byte) : Statement (.incZpx z) := ⟨decodeByte_opcode _, rfl⟩
theorem incAbs (w : Word) : Statement (.incAbs w) := ⟨decodeByte_opcode _, rfl⟩
theorem incAbx (w : Word) : Statement (.incAbx w) := ⟨decodeByte_opcode _, rfl⟩
theorem inx : Statement .inx := ⟨decodeByte_opcode _, rfl⟩
theorem iny : Statement .iny := ⟨decodeByte_opcode _, rfl⟩
theorem decZp (z : Byte) : Statement (.decZp z) := ⟨decodeByte_opcode _, rfl⟩
theorem decZpx (z : Byte) : Statement (.decZpx z) := ⟨decodeByte_opcode _, rfl⟩
theorem decAbs (w : Word) : Statement (.decAbs w) := ⟨decodeByte_opcode _, rfl⟩
theorem decAbx (w : Word) : Statement (.decAbx w) := ⟨decodeByte_opcode _, rfl⟩
theorem dex : Statement .dex := ⟨decodeByte_opcode _, rfl⟩
theorem dey : Statement .dey := ⟨decodeByte_opcode _, rfl⟩
theorem andImm (v : Byte) : Statement (.andImm v) := ⟨decodeByte_opcode _, rfl⟩
theorem andZp (z : Byte) : Statement (.andZp z) := ⟨decodeByte_opcode _, rfl⟩
theorem andZpx (z : Byte) : Statement (.andZpx z) := ⟨decodeByte_opcode _, rfl⟩
theorem andAbs (w : Word) : Statement (.andAbs w) := ⟨decodeByte_opcode _, rfl⟩
theorem andAbx (w : Word) : Statement (.andAbx w) := ⟨decodeByte_opcode _, rfl⟩
theorem andAby (w : Word) : Statement (.andAby w) := ⟨decodeByte_opcode _, rfl⟩
theorem andIzx (z : Byte) : Statement (.andIzx z) := ⟨decodeByte_opcode _, rfl⟩
theorem andIzy (z : Byte) : Statement (.andIzy z) := ⟨decodeByte_opcode _, rfl⟩
theorem oraImm (v : Byte) : Statement (.oraImm v) := ⟨decodeByte_opcode _, rfl⟩
theorem oraZp (z : Byte) : Statement (.oraZp z) := ⟨decodeByte_opcode _, rfl⟩
theorem oraZpx (z : Byte) : Statement (.oraZpx z) := ⟨decodeByte_opcode _, rfl⟩
theorem oraAbs (w : Word) : Statement (.oraAbs w) := ⟨decodeByte_opcode _, rfl⟩
theorem oraAbx (w : Word) : Statement (.oraAbx w) := ⟨decodeByte_opcode _, rfl⟩
theorem oraAby (w : Word) : Statement (.oraAby w) := ⟨decodeByte_opcode _, rfl⟩
theorem oraIzx (z : Byte) : Statement (.oraIzx z) := ⟨decodeByte_opcode _, rfl⟩
theorem oraIzy (z : Byte) : Statement (.oraIzy z) := ⟨decodeByte_opcode _, rfl⟩
theorem eorImm (v : Byte) : Statement (.eorImm v) := ⟨decodeByte_opcode _, rfl⟩
theorem eorZp (z : Byte) : Statement (.eorZp z) := ⟨decodeByte_opcode _, rfl⟩
theorem eorZpx (z : Byte) : Statement (.eorZpx z) := ⟨decodeByte_opcode _, rfl⟩
theorem eorAbs (w : Word) : Statement (.eorAbs w) := ⟨decodeByte_opcode _, rfl⟩
theorem eorAbx (w : Word) : Statement (.eorAbx w) := ⟨decodeByte_opcode _, rfl⟩
theorem eorAby (w : Word) : Statement (.eorAby w) := ⟨decodeByte_opcode _, rfl⟩
theorem eorIzx (z : Byte) : Statement (.eorIzx z) := ⟨decodeByte_opcode _, rfl⟩
theorem eorIzy (z : Byte) : Statement (.eorIzy z) := ⟨decodeByte_opcode _, rfl⟩
theorem bitZp (z : Byte) : Statement (.bitZp z) := ⟨decodeByte_opcode _, rfl⟩
theorem bitAbs (w : Word) : Statement (.bitAbs w) := ⟨decodeByte_opcode _, rfl⟩
theorem aslAcc : Statement .aslAcc := ⟨decodeByte_opcode _, rfl⟩
theorem aslZp (z : Byte) : Statement (.aslZp z) := ⟨decodeByte_opcode _, rfl⟩
theorem aslZpx (z : Byte) : Statement (.aslZpx z) := ⟨decodeByte_opcode _, rfl⟩
theorem aslAbs (w : Word) : Statement (.aslAbs w) := ⟨decodeByte_opcode _, rfl⟩
theorem aslAbx (w : Word) : Statement (.aslAbx w) := ⟨decodeByte_opcode _, rfl⟩
theorem lsrAcc : Statement .lsrAcc := ⟨decodeByte_opcode _, rfl⟩
theorem lsrZp (z : Byte) : Statement (.lsrZp z) := ⟨decodeByte_opcode _, rfl⟩
theorem lsrZpx (z : Byte) : Statement (.lsrZpx z) := ⟨decodeByte_opcode _, rfl⟩
theorem lsrAbs (w : Word) : Statement (.lsrAbs w) := ⟨decodeByte_opcode _, rfl⟩
theorem lsrAbx (w : Word) : Statement (.lsrAbx w) := ⟨decodeByte_opcode _, rfl⟩
theorem rolAcc : Statement .rolAcc := ⟨decodeByte_opcode _, rfl⟩
theorem rolZp (z : Byte) : Statement (.rolZp z) := ⟨decodeByte_opcode _, rfl⟩
theorem rolZpx (z : Byte) : Statement (.rolZpx z) := ⟨decodeByte_opcode _, rfl⟩
theorem rolAbs (w : Word) : Statement (.rolAbs w) := ⟨decodeByte_opcode _, rfl⟩
theorem rolAbx (w : Word) : Statement (.rolAbx w) := ⟨decodeByte_opcode _, rfl⟩
theorem rorAcc : Statement .rorAcc := ⟨decodeByte_opcode _, rfl⟩
theorem rorZp (z : Byte) : Statement (.rorZp z) := ⟨decodeByte_opcode _, rfl⟩
theorem rorZpx (z : Byte) : Statement (.rorZpx z) := ⟨decodeByte_opcode _, rfl⟩
theorem rorAbs (w : Word) : Statement (.rorAbs w) := ⟨decodeByte_opcode _, rfl⟩
theorem rorAbx (w : Word) : Statement (.rorAbx w) := ⟨decodeByte_opcode _, rfl⟩
theorem bcc (d : Byte) : Statement (.bcc d) := ⟨decodeByte_opcode _, rfl⟩
theorem bcs (d : Byte) : Statement (.bcs d) := ⟨decodeByte_opcode _, rfl⟩
theorem beq (d : Byte) : Statement (.beq d) := ⟨decodeByte_opcode _, rfl⟩
theorem bne (d : Byte) : Statement (.bne d) := ⟨decodeByte_opcode _, rfl⟩
theorem bmi (d : Byte) : Statement (.bmi d) := ⟨decodeByte_opcode _, rfl⟩
theorem bpl (d : Byte) : Statement (.bpl d) := ⟨decodeByte_opcode _, rfl⟩
theorem bvc (d : Byte) : Statement (.bvc d) := ⟨decodeByte_opcode _, rfl⟩
theorem bvs (d : Byte) : Statement (.bvs d) := ⟨decodeByte_opcode _, rfl⟩
theorem jmpAbs (w : Word) : Statement (.jmpAbs w) := ⟨decodeByte_opcode _, rfl⟩
theorem jmpInd (w : Word) : Statement (.jmpInd w) := ⟨decodeByte_opcode _, rfl⟩
theorem jsr (w : Word) : Statement (.jsr w) := ⟨decodeByte_opcode _, rfl⟩
theorem rts : Statement .rts := ⟨decodeByte_opcode _, rfl⟩
theorem pha : Statement .pha := ⟨decodeByte_opcode _, rfl⟩
theorem pla : Statement .pla := ⟨decodeByte_opcode _, rfl⟩
theorem php : Statement .php := ⟨decodeByte_opcode _, rfl⟩
theorem plp : Statement .plp := ⟨decodeByte_opcode _, rfl⟩
theorem clc : Statement .clc := ⟨decodeByte_opcode _, rfl⟩
theorem sec : Statement .sec := ⟨decodeByte_opcode _, rfl⟩
theorem cli : Statement .cli := ⟨decodeByte_opcode _, rfl⟩
theorem sei : Statement .sei := ⟨decodeByte_opcode _, rfl⟩
theorem clv : Statement .clv := ⟨decodeByte_opcode _, rfl⟩
theorem cld : Statement .cld := ⟨decodeByte_opcode _, rfl⟩
theorem sed : Statement .sed := ⟨decodeByte_opcode _, rfl⟩
theorem nop : Statement .nop := ⟨decodeByte_opcode _, rfl⟩
theorem brk : Statement .brk := ⟨decodeByte_opcode _, rfl⟩
theorem rti : Statement .rti := ⟨decodeByte_opcode _, rfl⟩

end Sys2Proof.Laws.Encoding
end

