-- ==== Sys2Proof/Laws/Step.lean ====
section
/-! SUPPORT. Everything fetching and stepping can do. -/

namespace Sys2Proof.Machine

theorem fetch8_eq_ok {s t : State} {b : Byte} :
    fetch8 s = .ok (b, t) ↔ busLoad s.pc s = .ok b ∧ t = s.setPc (s.pc + 1#16) := by
  simp only [fetch8, bind_eq_ok, except_pure, Except.ok.injEq, Prod.mk.injEq]
  constructor
  · rintro ⟨a, ha, rfl, rfl⟩; exact ⟨ha, rfl⟩
  · rintro ⟨ha, rfl⟩; exact ⟨b, ha, rfl, rfl⟩

theorem fetch8_eq_error {s : State} {f : Fault} : fetch8 s = .error f ↔ busLoad s.pc s = .error f := by
  simp [fetch8, bind_eq_error]

theorem fetch16_eq_ok {s t : State} {w : Word} :
    fetch16 s = .ok (w, t) ↔
      ∃ lo hi, busLoad s.pc s = .ok lo ∧ busLoad (s.pc + 1#16) s = .ok hi ∧ w = wordOf hi lo ∧
        t = s.setPc (s.pc + 2#16) := by
  have h : s.pc + 1#16 + 1#16 = s.pc + 2#16 := by bv_omega
  simp only [fetch16, bind_eq_ok, except_pure]
  constructor
  · rintro ⟨⟨lo, s1⟩, h1, ⟨hi, s2⟩, h2, h3⟩
    obtain ⟨hlo, rfl⟩ := fetch8_eq_ok.1 h1
    obtain ⟨hhi, rfl⟩ := fetch8_eq_ok.1 h2
    simp only [Except.ok.injEq, Prod.mk.injEq, State.setPc_pc, h] at h3
    exact ⟨lo, hi, hlo, hhi, h3.1.symm, h3.2.symm⟩
  · rintro ⟨lo, hi, hlo, hhi, rfl, rfl⟩
    refine ⟨(lo, s.setPc (s.pc + 1#16)), fetch8_eq_ok.2 ⟨hlo, rfl⟩, (hi, s.setPc (s.pc + 2#16)), ?_, rfl⟩
    exact fetch8_eq_ok.2 ⟨hhi, by simp only [State.setPc_pc, h]; rfl⟩

/-- Fetching operands moves `pc` and changes nothing else. -/
theorem fetchOperand_eq_ok {e : Entry} {s t : State} {i : Instr} (h : fetchOperand e s = .ok (i, t)) :
    ∃ w, t = s.setPc w := by
  cases e with
  | done i => simp [fetchOperand] at h; exact ⟨s.pc, by rw [← h.2]; rfl⟩
  | byte f =>
    simp only [fetchOperand, bind_eq_ok, except_pure] at h
    obtain ⟨⟨b, s1⟩, h1, h2⟩ := h
    simp only [Except.ok.injEq, Prod.mk.injEq] at h2
    obtain ⟨_, rfl⟩ := fetch8_eq_ok.1 h1
    exact ⟨_, h2.2.symm⟩
  | word f =>
    simp only [fetchOperand, bind_eq_ok, except_pure] at h
    obtain ⟨⟨w, s1⟩, h1, h2⟩ := h
    simp only [Except.ok.injEq, Prod.mk.injEq] at h2
    obtain ⟨_, _, _, _, _, rfl⟩ := fetch16_eq_ok.1 h1
    exact ⟨_, h2.2.symm⟩

/-- Everything a step that completes can do: the machine was running, and the next state is the meaning of some
instruction, run on the old state with `pc` moved past that instruction. -/
theorem step_eq_next {s t : State} (h : step s = .next t) :
    s.status = .running ∧ ∃ i w, exec i (s.setPc w) = .next t := by
  unfold step at h
  split at h
  · rename_i hrun
    refine ⟨hrun, ?_⟩
    unfold fetchAndExecute at h
    split at h
    · rename_i op s1 hf
      obtain ⟨_, rfl⟩ := fetch8_eq_ok.1 hf
      unfold executeOpcode at h
      split at h
      · simp at h
      · rename_i e he
        split at h
        · rename_i i s2 ho
          obtain ⟨w, rfl⟩ := fetchOperand_eq_ok ho
          exact ⟨i, w, h⟩
        · simp at h
    · simp at h
  · simp at h

/-- A property that every meaning keeps, and that does not look at `pc`, is kept by every step. -/
theorem step_induction {Q : State → Prop} (hpc : ∀ s w, Q s → Q (s.setPc w))
    (hex : ∀ i s t, Q s → exec i s = .next t → Q t) {s t : State} (hs : Q s) (h : step s = .next t) : Q t := by
  obtain ⟨_, i, w, hi⟩ := step_eq_next h
  exact hex i _ t (hpc s w hs) hi

end Sys2Proof.Machine
end

