-- ==== Sys2Proof/Tests/Slice0.lean ====
section
/-! SUPPORT. Tests: words written out from 30_encoding.md, the well-formedness check, one step per mnemonic against the
vectors of 95_test_vectors.md, and for each statement with hypotheses a state and operands that meet them. -/

namespace Sys2Proof.Machine.Tests

/-! ## Helpers -/

/-- The default start state of 95_test_vectors.md section 1. -/
def start : State := { State.reset with pc := 0x0200#16 }

/-- The state with bytes at 0x0200, where `pc` stands (95_test_vectors.md section 1). -/
def withCode (bs : List Byte) (st : State) : State := pokeAll 0x0200#16 bs st

/-- The state with bytes at an address and `pc` there. -/
def withCodeAt (a : Word) (bs : List Byte) (st : State) : State := (pokeAll a bs st).setPc a

/-- The step completes and the next state passes the check. -/
def steps (st : State) (check : State → Bool) : Bool :=
  match step st with
  | .next t => check t
  | _ => false

/-- The step ends in that fatal condition. -/
def faults (st : State) (f : Fault) : Bool :=
  match step st with
  | .fault g => g == f
  | _ => false

/-- The state after a step that completes. -/
def after (st : State) : State := tick st

/-! ## Decoding: every constructor, by the opcode byte of 30_encoding.md R87 and the operand bytes of R81 -/

/-- The instructions of 41_load_store_transfer.md. -/
theorem test_decode_load_store_transfer :
    decode [0b10100001#8, 0xF1#8] = .ok (.ldaIzx 0xF1#8, []) ∧
    decode [0b10100101#8, 0xF1#8] = .ok (.ldaZp 0xF1#8, []) ∧
    decode [0b10101001#8, 0xF1#8] = .ok (.ldaImm 0xF1#8, []) ∧
    decode [0b10101101#8, 0x34#8, 0x12#8] = .ok (.ldaAbs 0x1234#16, []) ∧
    decode [0b10110001#8, 0xF1#8] = .ok (.ldaIzy 0xF1#8, []) ∧
    decode [0b10110101#8, 0xF1#8] = .ok (.ldaZpx 0xF1#8, []) ∧
    decode [0b10111001#8, 0x34#8, 0x12#8] = .ok (.ldaAby 0x1234#16, []) ∧
    decode [0b10111101#8, 0x34#8, 0x12#8] = .ok (.ldaAbx 0x1234#16, []) ∧
    decode [0b10100010#8, 0xF1#8] = .ok (.ldxImm 0xF1#8, []) ∧
    decode [0b10100110#8, 0xF1#8] = .ok (.ldxZp 0xF1#8, []) ∧
    decode [0b10101110#8, 0x34#8, 0x12#8] = .ok (.ldxAbs 0x1234#16, []) ∧
    decode [0b10110110#8, 0xF1#8] = .ok (.ldxZpy 0xF1#8, []) ∧
    decode [0b10111110#8, 0x34#8, 0x12#8] = .ok (.ldxAby 0x1234#16, []) ∧
    decode [0b10100000#8, 0xF1#8] = .ok (.ldyImm 0xF1#8, []) ∧
    decode [0b10100100#8, 0xF1#8] = .ok (.ldyZp 0xF1#8, []) ∧
    decode [0b10101100#8, 0x34#8, 0x12#8] = .ok (.ldyAbs 0x1234#16, []) ∧
    decode [0b10110100#8, 0xF1#8] = .ok (.ldyZpx 0xF1#8, []) ∧
    decode [0b10111100#8, 0x34#8, 0x12#8] = .ok (.ldyAbx 0x1234#16, []) ∧
    decode [0b10000001#8, 0xF1#8] = .ok (.staIzx 0xF1#8, []) ∧
    decode [0b10000101#8, 0xF1#8] = .ok (.staZp 0xF1#8, []) ∧
    decode [0b10001101#8, 0x34#8, 0x12#8] = .ok (.staAbs 0x1234#16, []) ∧
    decode [0b10010001#8, 0xF1#8] = .ok (.staIzy 0xF1#8, []) ∧
    decode [0b10010101#8, 0xF1#8] = .ok (.staZpx 0xF1#8, []) ∧
    decode [0b10011001#8, 0x34#8, 0x12#8] = .ok (.staAby 0x1234#16, []) ∧
    decode [0b10011101#8, 0x34#8, 0x12#8] = .ok (.staAbx 0x1234#16, []) ∧
    decode [0b10000110#8, 0xF1#8] = .ok (.stxZp 0xF1#8, []) ∧
    decode [0b10001110#8, 0x34#8, 0x12#8] = .ok (.stxAbs 0x1234#16, []) ∧
    decode [0b10010110#8, 0xF1#8] = .ok (.stxZpy 0xF1#8, []) ∧
    decode [0b10000100#8, 0xF1#8] = .ok (.styZp 0xF1#8, []) ∧
    decode [0b10001100#8, 0x34#8, 0x12#8] = .ok (.styAbs 0x1234#16, []) ∧
    decode [0b10010100#8, 0xF1#8] = .ok (.styZpx 0xF1#8, []) ∧
    decode [0b10101010#8] = .ok (.tax, []) ∧
    decode [0b10101000#8] = .ok (.tay, []) ∧
    decode [0b10001010#8] = .ok (.txa, []) ∧
    decode [0b10011000#8] = .ok (.tya, []) ∧
    decode [0b10111010#8] = .ok (.tsx, []) ∧
    decode [0b10011010#8] = .ok (.txs, []) := by
  refine ⟨?_, ?_, ?_, ?_, ?_, ?_, ?_, ?_, ?_, ?_, ?_, ?_, ?_, ?_, ?_, ?_, ?_, ?_, ?_, ?_, ?_, ?_, ?_, ?_, ?_, ?_, ?_, ?_, ?_, ?_, ?_, ?_, ?_, ?_, ?_, ?_, ?_⟩ <;> rfl

/-- The instructions of 42_arithmetic_compare.md. -/
theorem test_decode_arithmetic_compare :
    decode [0b01100001#8, 0xF1#8] = .ok (.adcIzx 0xF1#8, []) ∧
    decode [0b01100101#8, 0xF1#8] = .ok (.adcZp 0xF1#8, []) ∧
    decode [0b01101001#8, 0xF1#8] = .ok (.adcImm 0xF1#8, []) ∧
    decode [0b01101101#8, 0x34#8, 0x12#8] = .ok (.adcAbs 0x1234#16, []) ∧
    decode [0b01110001#8, 0xF1#8] = .ok (.adcIzy 0xF1#8, []) ∧
    decode [0b01110101#8, 0xF1#8] = .ok (.adcZpx 0xF1#8, []) ∧
    decode [0b01111001#8, 0x34#8, 0x12#8] = .ok (.adcAby 0x1234#16, []) ∧
    decode [0b01111101#8, 0x34#8, 0x12#8] = .ok (.adcAbx 0x1234#16, []) ∧
    decode [0b11100001#8, 0xF1#8] = .ok (.sbcIzx 0xF1#8, []) ∧
    decode [0b11100101#8, 0xF1#8] = .ok (.sbcZp 0xF1#8, []) ∧
    decode [0b11101001#8, 0xF1#8] = .ok (.sbcImm 0xF1#8, []) ∧
    decode [0b11101101#8, 0x34#8, 0x12#8] = .ok (.sbcAbs 0x1234#16, []) ∧
    decode [0b11110001#8, 0xF1#8] = .ok (.sbcIzy 0xF1#8, []) ∧
    decode [0b11110101#8, 0xF1#8] = .ok (.sbcZpx 0xF1#8, []) ∧
    decode [0b11111001#8, 0x34#8, 0x12#8] = .ok (.sbcAby 0x1234#16, []) ∧
    decode [0b11111101#8, 0x34#8, 0x12#8] = .ok (.sbcAbx 0x1234#16, []) ∧
    decode [0b11000001#8, 0xF1#8] = .ok (.cmpIzx 0xF1#8, []) ∧
    decode [0b11000101#8, 0xF1#8] = .ok (.cmpZp 0xF1#8, []) ∧
    decode [0b11001001#8, 0xF1#8] = .ok (.cmpImm 0xF1#8, []) ∧
    decode [0b11001101#8, 0x34#8, 0x12#8] = .ok (.cmpAbs 0x1234#16, []) ∧
    decode [0b11010001#8, 0xF1#8] = .ok (.cmpIzy 0xF1#8, []) ∧
    decode [0b11010101#8, 0xF1#8] = .ok (.cmpZpx 0xF1#8, []) ∧
    decode [0b11011001#8, 0x34#8, 0x12#8] = .ok (.cmpAby 0x1234#16, []) ∧
    decode [0b11011101#8, 0x34#8, 0x12#8] = .ok (.cmpAbx 0x1234#16, []) ∧
    decode [0b11100000#8, 0xF1#8] = .ok (.cpxImm 0xF1#8, []) ∧
    decode [0b11100100#8, 0xF1#8] = .ok (.cpxZp 0xF1#8, []) ∧
    decode [0b11101100#8, 0x34#8, 0x12#8] = .ok (.cpxAbs 0x1234#16, []) ∧
    decode [0b11000000#8, 0xF1#8] = .ok (.cpyImm 0xF1#8, []) ∧
    decode [0b11000100#8, 0xF1#8] = .ok (.cpyZp 0xF1#8, []) ∧
    decode [0b11001100#8, 0x34#8, 0x12#8] = .ok (.cpyAbs 0x1234#16, []) ∧
    decode [0b11100110#8, 0xF1#8] = .ok (.incZp 0xF1#8, []) ∧
    decode [0b11101110#8, 0x34#8, 0x12#8] = .ok (.incAbs 0x1234#16, []) ∧
    decode [0b11110110#8, 0xF1#8] = .ok (.incZpx 0xF1#8, []) ∧
    decode [0b11111110#8, 0x34#8, 0x12#8] = .ok (.incAbx 0x1234#16, []) ∧
    decode [0b11101000#8] = .ok (.inx, []) ∧
    decode [0b11001000#8] = .ok (.iny, []) ∧
    decode [0b11000110#8, 0xF1#8] = .ok (.decZp 0xF1#8, []) ∧
    decode [0b11001110#8, 0x34#8, 0x12#8] = .ok (.decAbs 0x1234#16, []) ∧
    decode [0b11010110#8, 0xF1#8] = .ok (.decZpx 0xF1#8, []) ∧
    decode [0b11011110#8, 0x34#8, 0x12#8] = .ok (.decAbx 0x1234#16, []) ∧
    decode [0b11001010#8] = .ok (.dex, []) ∧
    decode [0b10001000#8] = .ok (.dey, []) := by
  refine ⟨?_, ?_, ?_, ?_, ?_, ?_, ?_, ?_, ?_, ?_, ?_, ?_, ?_, ?_, ?_, ?_, ?_, ?_, ?_, ?_, ?_, ?_, ?_, ?_, ?_, ?_, ?_, ?_, ?_, ?_, ?_, ?_, ?_, ?_, ?_, ?_, ?_, ?_, ?_, ?_, ?_, ?_⟩ <;> rfl

/-- The instructions of 43_logic_shift.md. -/
theorem test_decode_logic_shift :
    decode [0b00100001#8, 0xF1#8] = .ok (.andIzx 0xF1#8, []) ∧
    decode [0b00100101#8, 0xF1#8] = .ok (.andZp 0xF1#8, []) ∧
    decode [0b00101001#8, 0xF1#8] = .ok (.andImm 0xF1#8, []) ∧
    decode [0b00101101#8, 0x34#8, 0x12#8] = .ok (.andAbs 0x1234#16, []) ∧
    decode [0b00110001#8, 0xF1#8] = .ok (.andIzy 0xF1#8, []) ∧
    decode [0b00110101#8, 0xF1#8] = .ok (.andZpx 0xF1#8, []) ∧
    decode [0b00111001#8, 0x34#8, 0x12#8] = .ok (.andAby 0x1234#16, []) ∧
    decode [0b00111101#8, 0x34#8, 0x12#8] = .ok (.andAbx 0x1234#16, []) ∧
    decode [0b00000001#8, 0xF1#8] = .ok (.oraIzx 0xF1#8, []) ∧
    decode [0b00000101#8, 0xF1#8] = .ok (.oraZp 0xF1#8, []) ∧
    decode [0b00001001#8, 0xF1#8] = .ok (.oraImm 0xF1#8, []) ∧
    decode [0b00001101#8, 0x34#8, 0x12#8] = .ok (.oraAbs 0x1234#16, []) ∧
    decode [0b00010001#8, 0xF1#8] = .ok (.oraIzy 0xF1#8, []) ∧
    decode [0b00010101#8, 0xF1#8] = .ok (.oraZpx 0xF1#8, []) ∧
    decode [0b00011001#8, 0x34#8, 0x12#8] = .ok (.oraAby 0x1234#16, []) ∧
    decode [0b00011101#8, 0x34#8, 0x12#8] = .ok (.oraAbx 0x1234#16, []) ∧
    decode [0b01000001#8, 0xF1#8] = .ok (.eorIzx 0xF1#8, []) ∧
    decode [0b01000101#8, 0xF1#8] = .ok (.eorZp 0xF1#8, []) ∧
    decode [0b01001001#8, 0xF1#8] = .ok (.eorImm 0xF1#8, []) ∧
    decode [0b01001101#8, 0x34#8, 0x12#8] = .ok (.eorAbs 0x1234#16, []) ∧
    decode [0b01010001#8, 0xF1#8] = .ok (.eorIzy 0xF1#8, []) ∧
    decode [0b01010101#8, 0xF1#8] = .ok (.eorZpx 0xF1#8, []) ∧
    decode [0b01011001#8, 0x34#8, 0x12#8] = .ok (.eorAby 0x1234#16, []) ∧
    decode [0b01011101#8, 0x34#8, 0x12#8] = .ok (.eorAbx 0x1234#16, []) ∧
    decode [0b00100100#8, 0xF1#8] = .ok (.bitZp 0xF1#8, []) ∧
    decode [0b00101100#8, 0x34#8, 0x12#8] = .ok (.bitAbs 0x1234#16, []) ∧
    decode [0b00000110#8, 0xF1#8] = .ok (.aslZp 0xF1#8, []) ∧
    decode [0b00001010#8] = .ok (.aslAcc, []) ∧
    decode [0b00001110#8, 0x34#8, 0x12#8] = .ok (.aslAbs 0x1234#16, []) ∧
    decode [0b00010110#8, 0xF1#8] = .ok (.aslZpx 0xF1#8, []) ∧
    decode [0b00011110#8, 0x34#8, 0x12#8] = .ok (.aslAbx 0x1234#16, []) ∧
    decode [0b01000110#8, 0xF1#8] = .ok (.lsrZp 0xF1#8, []) ∧
    decode [0b01001010#8] = .ok (.lsrAcc, []) ∧
    decode [0b01001110#8, 0x34#8, 0x12#8] = .ok (.lsrAbs 0x1234#16, []) ∧
    decode [0b01010110#8, 0xF1#8] = .ok (.lsrZpx 0xF1#8, []) ∧
    decode [0b01011110#8, 0x34#8, 0x12#8] = .ok (.lsrAbx 0x1234#16, []) ∧
    decode [0b00100110#8, 0xF1#8] = .ok (.rolZp 0xF1#8, []) ∧
    decode [0b00101010#8] = .ok (.rolAcc, []) ∧
    decode [0b00101110#8, 0x34#8, 0x12#8] = .ok (.rolAbs 0x1234#16, []) ∧
    decode [0b00110110#8, 0xF1#8] = .ok (.rolZpx 0xF1#8, []) ∧
    decode [0b00111110#8, 0x34#8, 0x12#8] = .ok (.rolAbx 0x1234#16, []) ∧
    decode [0b01100110#8, 0xF1#8] = .ok (.rorZp 0xF1#8, []) ∧
    decode [0b01101010#8] = .ok (.rorAcc, []) ∧
    decode [0b01101110#8, 0x34#8, 0x12#8] = .ok (.rorAbs 0x1234#16, []) ∧
    decode [0b01110110#8, 0xF1#8] = .ok (.rorZpx 0xF1#8, []) ∧
    decode [0b01111110#8, 0x34#8, 0x12#8] = .ok (.rorAbx 0x1234#16, []) := by
  refine ⟨?_, ?_, ?_, ?_, ?_, ?_, ?_, ?_, ?_, ?_, ?_, ?_, ?_, ?_, ?_, ?_, ?_, ?_, ?_, ?_, ?_, ?_, ?_, ?_, ?_, ?_, ?_, ?_, ?_, ?_, ?_, ?_, ?_, ?_, ?_, ?_, ?_, ?_, ?_, ?_, ?_, ?_, ?_, ?_, ?_, ?_⟩ <;> rfl

/-- The instructions of 44_branch_jump.md. -/
theorem test_decode_branch_jump :
    decode [0b10010000#8, 0xF1#8] = .ok (.bcc 0xF1#8, []) ∧
    decode [0b10110000#8, 0xF1#8] = .ok (.bcs 0xF1#8, []) ∧
    decode [0b11110000#8, 0xF1#8] = .ok (.beq 0xF1#8, []) ∧
    decode [0b11010000#8, 0xF1#8] = .ok (.bne 0xF1#8, []) ∧
    decode [0b00110000#8, 0xF1#8] = .ok (.bmi 0xF1#8, []) ∧
    decode [0b00010000#8, 0xF1#8] = .ok (.bpl 0xF1#8, []) ∧
    decode [0b01010000#8, 0xF1#8] = .ok (.bvc 0xF1#8, []) ∧
    decode [0b01110000#8, 0xF1#8] = .ok (.bvs 0xF1#8, []) ∧
    decode [0b01001100#8, 0x34#8, 0x12#8] = .ok (.jmpAbs 0x1234#16, []) ∧
    decode [0b01101100#8, 0x34#8, 0x12#8] = .ok (.jmpInd 0x1234#16, []) ∧
    decode [0b00100000#8, 0x34#8, 0x12#8] = .ok (.jsr 0x1234#16, []) ∧
    decode [0b01100000#8] = .ok (.rts, []) := by
  refine ⟨?_, ?_, ?_, ?_, ?_, ?_, ?_, ?_, ?_, ?_, ?_, ?_⟩ <;> rfl

/-- The instructions of 45_stack_flag_system.md. -/
theorem test_decode_stack_flag_system :
    decode [0b01001000#8] = .ok (.pha, []) ∧
    decode [0b01101000#8] = .ok (.pla, []) ∧
    decode [0b00001000#8] = .ok (.php, []) ∧
    decode [0b00101000#8] = .ok (.plp, []) ∧
    decode [0b00011000#8] = .ok (.clc, []) ∧
    decode [0b00111000#8] = .ok (.sec, []) ∧
    decode [0b01011000#8] = .ok (.cli, []) ∧
    decode [0b01111000#8] = .ok (.sei, []) ∧
    decode [0b10111000#8] = .ok (.clv, []) ∧
    decode [0b11011000#8] = .ok (.cld, []) ∧
    decode [0b11111000#8] = .ok (.sed, []) ∧
    decode [0b11101010#8] = .ok (.nop, []) ∧
    decode [0b00000000#8] = .ok (.brk, []) ∧
    decode [0b01000000#8] = .ok (.rti, []) := by
  refine ⟨?_, ?_, ?_, ?_, ?_, ?_, ?_, ?_, ?_, ?_, ?_, ?_, ?_, ?_⟩ <;> rfl

/-- Unsupported bytes of 30_encoding.md R88, and an instruction cut short, are rejected by name. -/
theorem test_decode_rejects :
    decode [0x02#8, 0x00#8, 0x00#8] = .error (.unsupportedOpcode 0x02#8) ∧
    decode [0xFF#8] = .error (.unsupportedOpcode 0xFF#8) ∧
    decode [0xAD#8, 0x34#8] = .error (.missingOperand 0xAD#8) ∧
    decode [] = .error .noBytes := by
  exact ⟨rfl, rfl, rfl, rfl⟩

/-- The table's bit numbering: `LDA abs` of 0x1234 has its opcode in bits 7..0 and its low operand byte in bits 15..8. -/
theorem test_decodeTableWord :
    decodeTableWord 24 0x1234AD = some (.ldaAbs 0x1234#16) ∧ decodeTableWord 8 0x02 = none ∧
    decodeTableWord 8 0x34AD = some (.ldaAbs 0x0000#16) := by
  exact ⟨rfl, rfl, rfl⟩

/-! ## Well-formedness: pairs whose cell of 30_encoding.md R87 is blank are refused -/

theorem test_wf_refuses_store_immediate : fits .sta (.imm 0x05#8) = false := by decide
theorem test_wf_refuses_ldx_zpx : fits .ldx (.mem (.zpx 0x10#8)) = false := by decide
theorem test_wf_refuses_ldy_zpy : fits .ldy (.mem (.zpy 0x10#8)) = false := by decide
theorem test_wf_refuses_inc_accumulator : fits .inc .acc = false := by decide
theorem test_wf_refuses_bit_immediate : fits .bit (.imm 0x05#8) = false := by decide
theorem test_wf_refuses_jsr_indirect : fits .jsr (.ind 0x0300#16) = false := by decide
theorem test_wf_refuses_jmp_relative : fits .jmp (.rel 0x05#8) = false := by decide
theorem test_wf_refuses_tax_accumulator : fits .tax .acc = false := by decide
theorem test_wf_refuses_branch_absolute : fits .bne (.mem (.abs 0x0300#16)) = false := by decide
theorem test_wf_accepts_stx_zpy : fits .stx (.mem (.zpy 0x10#8)) = true := by decide

/-! ## One step per mnemonic, from 95_test_vectors.md (the vector's id is in the name) -/

theorem test_lda_v42 :
    steps (withCode [0xA1#8, 0xF0#8] { start with x := 0x20#8, ram := [(0x0010, 0x40#8), (0x0011, 0x03#8), (0x0340, 0x1A#8)] })
      (fun t => t.pc == 0x0202#16 && t.a == 0x1A#8 && t.p == 0x04#8) = true := by decide

theorem test_ldx_v35 :
    steps (withCode [0xB6#8, 0x90#8] { start with y := 0xFF#8, ram := [(0x008F, 0x33#8), (0x018F, 0x99#8)] })
      (fun t => t.pc == 0x0202#16 && t.x == 0x33#8 && t.p == 0x04#8) = true := by decide

theorem test_ldy_v65 :
    steps (withCode [0xBC#8, 0x00#8, 0x03#8] { start with x := 0x03#8 })
      (fun t => t.pc == 0x0203#16 && t.p == 0x06#8) = true := by decide

theorem test_sta_v69 :
    steps (withCode [0x95#8, 0xF0#8] { start with a := 0x77#8, x := 0x20#8 })
      (fun t => t.pc == 0x0202#16 && t.p == 0x04#8 && Memory.get t.ram 0x0010 == 0x77#8) = true := by decide

theorem test_sta_v74 :
    steps (withCode [0x91#8, 0x30#8] { start with a := 0x14#8, y := 0x10#8, ram := [(0x0030, 0xF8#8), (0x0031, 0x02#8)] })
      (fun t => t.pc == 0x0202#16 && t.p == 0x04#8 && Memory.get t.ram 0x0308 == 0x14#8) = true := by decide

theorem test_stx_v76 :
    steps (withCode [0x96#8, 0x10#8] { start with x := 0x22#8, y := 0x05#8 })
      (fun t => t.pc == 0x0202#16 && t.p == 0x04#8 && Memory.get t.ram 0x0015 == 0x22#8) = true := by decide

theorem test_sty_v79 :
    steps (withCode [0x94#8, 0x10#8] { start with x := 0x05#8, y := 0x32#8 })
      (fun t => t.pc == 0x0202#16 && t.p == 0x04#8 && Memory.get t.ram 0x0015 == 0x32#8) = true := by decide

theorem test_tax_v83 :
    steps (withCode [0xAA#8] { start with x := 0x55#8 })
      (fun t => t.pc == 0x0201#16 && t.x == 0x00#8 && t.p == 0x06#8) = true := by decide

theorem test_tay_v84 :
    steps (withCode [0xA8#8] { start with a := 0x01#8, p := 0x86#8 })
      (fun t => t.pc == 0x0201#16 && t.y == 0x01#8 && t.p == 0x04#8) = true := by decide

theorem test_txa_v85 :
    steps (withCode [0x8A#8] { start with a := 0x12#8 })
      (fun t => t.pc == 0x0201#16 && t.a == 0x00#8 && t.p == 0x06#8) = true := by decide

theorem test_tya_v86 :
    steps (withCode [0x98#8] { start with y := 0xFF#8 })
      (fun t => t.pc == 0x0201#16 && t.a == 0xFF#8 && t.p == 0x84#8) = true := by decide

theorem test_tsx_v88 :
    steps (withCode [0xBA#8] { start with x := 0x11#8, s := 0x00#8 })
      (fun t => t.pc == 0x0201#16 && t.x == 0x00#8 && t.p == 0x06#8) = true := by decide

theorem test_txs_v89 :
    steps (withCode [0x9A#8] { start with p := 0x84#8 })
      (fun t => t.pc == 0x0201#16 && t.s == 0x00#8 && t.p == 0x84#8) = true := by decide

theorem test_adc_v92 :
    steps (withCode [0x69#8, 0x00#8] { start with a := 0x7F#8, p := 0x05#8 })
      (fun t => t.pc == 0x0202#16 && t.a == 0x80#8 && t.p == 0xC4#8) = true := by decide

theorem test_adc_v96 :
    steps (withCode [0x69#8, 0x10#8] { start with a := 0x20#8, p := 0xC7#8 })
      (fun t => t.pc == 0x0202#16 && t.a == 0x31#8 && t.p == 0x04#8) = true := by decide

theorem test_sbc_v106 :
    steps (withCode [0xE9#8, 0x01#8] { start with a := 0x80#8, p := 0x05#8 })
      (fun t => t.pc == 0x0202#16 && t.a == 0x7F#8 && t.p == 0x45#8) = true := by decide

theorem test_sbc_v108 :
    steps (withCode [0xE9#8, 0x05#8] { start with a := 0x10#8 })
      (fun t => t.pc == 0x0202#16 && t.a == 0x0A#8 && t.p == 0x05#8) = true := by decide

theorem test_cmp_v125 :
    steps (withCode [0xC9#8, 0x10#8] { start with a := 0x10#8, p := 0x44#8 })
      (fun t => t.pc == 0x0202#16 && t.p == 0x47#8) = true := by decide

theorem test_cpx_v133 :
    steps (withCode [0xE0#8, 0x06#8] { start with x := 0x05#8 })
      (fun t => t.pc == 0x0202#16 && t.p == 0x84#8) = true := by decide

theorem test_cpy_v136 :
    steps (withCode [0xC0#8, 0x7F#8] { start with y := 0x7F#8, p := 0xC4#8 })
      (fun t => t.pc == 0x0202#16 && t.p == 0x47#8) = true := by decide

theorem test_inc_v139 :
    steps (withCode [0xE6#8, 0x10#8] { start with ram := [(0x0010, 0xFF#8)] })
      (fun t => t.pc == 0x0202#16 && t.p == 0x06#8 && Memory.get t.ram 0x0010 == 0x00#8) = true := by decide

theorem test_inx_v150 :
    steps (withCode [0xE8#8] { start with x := 0x7F#8 })
      (fun t => t.pc == 0x0201#16 && t.x == 0x80#8 && t.p == 0x84#8) = true := by decide

theorem test_iny_v152 :
    steps (withCode [0xC8#8] { start with y := 0xFF#8, p := 0x85#8 })
      (fun t => t.pc == 0x0201#16 && t.y == 0x00#8 && t.p == 0x07#8) = true := by decide

theorem test_dec_v145 :
    steps (withCode [0xC6#8, 0x10#8] { start with p := 0x05#8, ram := [(0x0010, 0x01#8)] })
      (fun t => t.pc == 0x0202#16 && t.p == 0x07#8 && Memory.get t.ram 0x0010 == 0x00#8) = true := by decide

theorem test_dex_v153 :
    steps (withCode [0xCA#8] start)
      (fun t => t.pc == 0x0201#16 && t.x == 0xFF#8 && t.p == 0x84#8) = true := by decide

theorem test_dey_v155 :
    steps (withCode [0x88#8] { start with y := 0x01#8 })
      (fun t => t.pc == 0x0201#16 && t.y == 0x00#8 && t.p == 0x06#8) = true := by decide

theorem test_and_v159 :
    steps (withCode [0x29#8, 0x80#8] { start with a := 0xFF#8, p := 0x45#8 })
      (fun t => t.pc == 0x0202#16 && t.a == 0x80#8 && t.p == 0xC5#8) = true := by decide

theorem test_ora_v175 :
    steps (withCode [0x11#8, 0x30#8] { start with a := 0x01#8, y := 0x01#8, ram := [(0x0031, 0x03#8), (0x0301, 0x80#8)] })
      (fun t => t.pc == 0x0202#16 && t.a == 0x81#8 && t.p == 0x84#8) = true := by decide

theorem test_eor_v184 :
    steps (withCode [0x51#8, 0x30#8] { start with a := 0x0F#8, y := 0x01#8, ram := [(0x0031, 0x03#8), (0x0301, 0x8F#8)] })
      (fun t => t.pc == 0x0202#16 && t.a == 0x80#8 && t.p == 0x84#8) = true := by decide

theorem test_bit_v185 :
    steps (withCode [0x24#8, 0x10#8] { start with a := 0x01#8, ram := [(0x0010, 0xC0#8)] })
      (fun t => t.pc == 0x0202#16 && t.p == 0xC6#8) = true := by decide

theorem test_bit_v188 :
    steps (withCode [0x2C#8, 0x00#8, 0x03#8] { start with a := 0x80#8, p := 0x05#8, ram := [(0x0300, 0x80#8)] })
      (fun t => t.pc == 0x0203#16 && t.p == 0x85#8) = true := by decide

theorem test_asl_v190 :
    steps (withCode [0x0A#8] { start with a := 0x41#8, p := 0x05#8 })
      (fun t => t.pc == 0x0201#16 && t.a == 0x82#8 && t.p == 0x84#8) = true := by decide

theorem test_asl_v194 :
    steps (withCode [0x1E#8, 0x00#8, 0x03#8] { start with x := 0x01#8, ram := [(0x0301, 0xC0#8)] })
      (fun t => t.pc == 0x0203#16 && t.p == 0x85#8 && Memory.get t.ram 0x0301 == 0x80#8) = true := by decide

theorem test_lsr_v197 :
    steps (withCode [0x46#8, 0x10#8] { start with p := 0x84#8, ram := [(0x0010, 0xFF#8)] })
      (fun t => t.pc == 0x0202#16 && t.p == 0x05#8 && Memory.get t.ram 0x0010 == 0x7F#8) = true := by decide

theorem test_rol_v205 :
    steps (withCode [0x36#8, 0x10#8] { start with x := 0x01#8, p := 0x05#8, ram := [(0x0011, 0x7F#8)] })
      (fun t => t.pc == 0x0202#16 && t.p == 0x84#8 && Memory.get t.ram 0x0011 == 0xFF#8) = true := by decide

theorem test_ror_v211 :
    steps (withCode [0x66#8, 0x10#8] { start with p := 0x05#8 })
      (fun t => t.pc == 0x0202#16 && t.p == 0x84#8 && Memory.get t.ram 0x0010 == 0x80#8) = true := by decide

theorem test_ror_v209 :
    steps (withCode [0x6A#8] { start with a := 0x01#8, p := 0x05#8 })
      (fun t => t.pc == 0x0201#16 && t.a == 0x80#8 && t.p == 0x85#8) = true := by decide

theorem test_bcc_v233 :
    steps (withCodeAt 0x0010#16 [0x90#8, 0x80#8] start)
      (fun t => t.pc == 0xFF92#16 && t.p == 0x04#8) = true := by decide

theorem test_bcs_v217 :
    steps (withCode [0xB0#8, 0xFC#8] { start with p := 0x05#8 })
      (fun t => t.pc == 0x01FE#16 && t.p == 0x05#8) = true := by decide

theorem test_beq_v29 :
    steps (withCode [0xF0#8, 0x80#8] { start with p := 0x06#8 })
      (fun t => t.pc == 0x0182#16 && t.p == 0x06#8) = true := by decide

theorem test_bne_v55 :
    steps (withCodeAt 0xFFFC#16 [0xD0#8, 0x05#8] start)
      (fun t => t.pc == 0x0003#16 && t.p == 0x04#8) = true := by decide

theorem test_bmi_v223 :
    steps (withCode [0x30#8, 0x7F#8] { start with p := 0x84#8 })
      (fun t => t.pc == 0x0281#16 && t.p == 0x84#8) = true := by decide

theorem test_bpl_v225 :
    steps (withCode [0x10#8, 0x80#8] start)
      (fun t => t.pc == 0x0182#16 && t.p == 0x04#8) = true := by decide

theorem test_bvc_v228 :
    steps (withCode [0x50#8, 0x02#8] { start with p := 0x44#8 })
      (fun t => t.pc == 0x0202#16 && t.p == 0x44#8) = true := by decide

theorem test_bvs_v229 :
    steps (withCode [0x70#8, 0x02#8] { start with p := 0x44#8 })
      (fun t => t.pc == 0x0204#16 && t.p == 0x44#8) = true := by decide

theorem test_jmp_v50 :
    steps (withCode [0x6C#8, 0xFF#8, 0x02#8] { start with ram := [(0x02FF, 0x34#8), (0x0300, 0x12#8)] })
      (fun t => t.pc == 0x1234#16 && t.p == 0x04#8) = true := by decide

theorem test_jmp_v234 :
    steps (withCode [0x4C#8, 0x00#8, 0x80#8] start)
      (fun t => t.pc == 0x8000#16 && t.p == 0x04#8) = true := by decide

theorem test_jsr_v239 :
    steps (withCode [0x20#8, 0x34#8, 0x92#8] { start with s := 0x00#8 })
      (fun t => t.pc == 0x9234#16 && t.s == 0xFE#8 && t.p == 0x04#8 && Memory.get t.ram 0x0100 == 0x02#8 && Memory.get t.ram 0x01FF == 0x02#8) = true := by decide

theorem test_rts_v242 :
    steps (withCode [0x60#8] { start with s := 0xFB#8, ram := [(0x01FC, 0xFF#8), (0x01FD, 0xFF#8)] })
      (fun t => t.pc == 0x0000#16 && t.s == 0xFD#8 && t.p == 0x04#8) = true := by decide

theorem test_rts_v243 :
    steps (withCode [0x60#8] { start with s := 0xFF#8, ram := [(0x0100, 0x33#8), (0x0101, 0x44#8)] })
      (fun t => t.pc == 0x4434#16 && t.s == 0x01#8 && t.p == 0x04#8) = true := by decide

theorem test_pha_v246 :
    steps (withCode [0x48#8] { start with a := 0xCD#8, s := 0x00#8 })
      (fun t => t.pc == 0x0201#16 && t.s == 0xFF#8 && t.p == 0x04#8 && Memory.get t.ram 0x0100 == 0xCD#8) = true := by decide

theorem test_pla_v247 :
    steps (withCode [0x68#8] { start with s := 0xFC#8, p := 0x84#8 })
      (fun t => t.pc == 0x0201#16 && t.s == 0xFD#8 && t.p == 0x06#8) = true := by decide

theorem test_php_v250 :
    steps (withCode [0x08#8] { start with p := 0xFF#8 })
      (fun t => t.pc == 0x0201#16 && t.s == 0xFC#8 && t.p == 0xFF#8 && Memory.get t.ram 0x01FD == 0xFF#8) = true := by decide

theorem test_plp_v253 :
    steps (withCode [0x28#8] { start with s := 0xFC#8, p := 0xFF#8 })
      (fun t => t.pc == 0x0201#16 && t.s == 0xFD#8 && t.p == 0x00#8) = true := by decide

theorem test_clc_v257 :
    steps (withCode [0x18#8] { start with p := 0x05#8 })
      (fun t => t.pc == 0x0201#16 && t.p == 0x04#8) = true := by decide

theorem test_sec_v265 :
    steps (withCode [0x38#8] { start with p := 0xFE#8 })
      (fun t => t.pc == 0x0201#16 && t.p == 0xFF#8) = true := by decide

theorem test_cli_v260 :
    steps (withCode [0x58#8] start)
      (fun t => t.pc == 0x0201#16 && t.p == 0x00#8) = true := by decide

theorem test_sei_v261 :
    steps (withCode [0x78#8] { start with p := 0x00#8 })
      (fun t => t.pc == 0x0201#16 && t.p == 0x04#8) = true := by decide

theorem test_clv_v262 :
    steps (withCode [0xB8#8] { start with p := 0x44#8 })
      (fun t => t.pc == 0x0201#16 && t.p == 0x04#8) = true := by decide

theorem test_cld_v263 :
    steps (withCode [0xD8#8] { start with p := 0x0C#8 })
      (fun t => t.pc == 0x0201#16 && t.p == 0x04#8) = true := by decide

theorem test_sed_v264 :
    steps (withCode [0xF8#8] start)
      (fun t => t.pc == 0x0201#16 && t.p == 0x0C#8) = true := by decide

theorem test_nop_v266 :
    steps (withCode [0xEA#8] { start with a := 0x01#8, x := 0x02#8, y := 0x03#8, p := 0xFF#8 })
      (fun t => t.pc == 0x0201#16 && t.p == 0xFF#8) = true := by decide

theorem test_brk_v268 :
    steps (withCode [0x00#8] { start with s := 0x01#8, p := 0x00#8, params := { Params.atReset with prg := [(0x3FFF, 0xC0#8)] } })
      (fun t => t.pc == 0xC000#16 && t.s == 0xFE#8 && t.p == 0x14#8 && Memory.get t.ram 0x0100 == 0x02#8 && Memory.get t.ram 0x0101 == 0x02#8 && Memory.get t.ram 0x01FF == 0x10#8) = true := by decide

theorem test_brk_v270 :
    steps (withCodeAt 0xFFFF#16 [0x00#8] start)
      (fun t => t.pc == 0x0000#16 && t.s == 0xFA#8 && t.p == 0x14#8 && Memory.get t.ram 0x01FB == 0x14#8 && Memory.get t.ram 0x01FC == 0x01#8) = true := by decide

theorem test_rti_v273 :
    steps (withCode [0x40#8] { start with s := 0xFE#8, ram := [(0x0100, 0x78#8), (0x0101, 0x56#8), (0x01FF, 0xC3#8)] })
      (fun t => t.pc == 0x5678#16 && t.s == 0x01#8 && t.p == 0xC3#8) = true := by decide

/-! ## Fatal conditions, from 95_test_vectors.md section 4 -/

theorem test_fault_v274 : faults (withCode [0x02#8] start) (.unsupportedOpcode 0x02#8 0x0200#16) = true := by decide

theorem test_fault_v281 : faults (withCode [0xAD#8, 0x00#8, 0x20#8] start) (.unimplementedRegion .ppu .read 0x2000#16) = true := by decide

theorem test_fault_v284 : faults (withCode [0xAD#8, 0x1F#8, 0x40#8] start) (.unimplementedRegion .apuIo .read 0x401F#16) = true := by decide

theorem test_fault_v283 : faults (withCode [0x8D#8, 0x00#8, 0x40#8] { start with a := 0x01#8 }) (.unimplementedRegion .apuIo .write 0x4000#16) = true := by decide

theorem test_fault_v285 : faults (withCode [0xAD#8, 0x20#8, 0x40#8] start) (.mapperRange .read 0x4020#16) = true := by decide

theorem test_fault_v286 : faults (withCode [0x8D#8, 0x00#8, 0x60#8] { start with a := 0x01#8 }) (.mapperRange .write 0x6000#16) = true := by decide

theorem test_fault_v289 : faults (withCode [0x8D#8, 0xFF#8, 0xFF#8] { start with a := 0x01#8 }) (.readOnlyWrite 0xFFFF#16) = true := by decide

theorem test_fault_v291 : faults (withCode [0x0E#8, 0x00#8, 0xC0#8] start) (.readOnlyWrite 0xC000#16) = true := by decide

theorem test_fault_v296 : faults (withCode [0x6C#8, 0xFF#8, 0x1F#8] start) (.unimplementedRegion .ppu .read 0x2000#16) = true := by decide

theorem test_fault_v298 : faults { start with pc := 0x4020#16 } (.mapperRange .read 0x4020#16) = true := by decide

theorem test_fault_v299 : faults (withCodeAt 0x1FFF#16 [0xA9#8, 0x01#8] start) (.unimplementedRegion .ppu .read 0x2000#16) = true := by decide

/-! ## The interface of the host -/

/-- From the reset state, the placed instruction is the one the next step runs: the reset `pc` lies in RAM. -/
theorem test_withFetchWord :
    steps (State.reset.withFetchWord 16 0x42A9) (fun t => t.a == 0x42#8 && t.pc == 0x0002#16) = true ∧
    steps (State.reset.withFetchWord 24 0x1234AD) (fun t => t.pc == 0x0003#16) = true ∧
    faults (State.reset.withFetchWord 8 0x02) (.unsupportedOpcode 0x02#8 0x0000#16) = true := by decide

/-- With `pc` where no byte can stand, or with its operand there, the instruction is placed at 0x0200. -/
theorem test_withFetchWord_relocates :
    steps ({ start with pc := 0x2000#16 }.withFetchWord 8 0xEA) (fun t => t.pc == 0x0201#16) = true ∧
    steps ({ start with pc := 0x1FFF#16 }.withFetchWord 16 0x42A9) (fun t => t.a == 0x42#8) = true ∧
    steps ({ start with pc := 0x1FFF#16 }.withFetchWord 8 0xEA) (fun t => t.pc == 0x2000#16) = true := by decide

/-- Both readings of the open parameter (V43, V44). -/
theorem test_zpPtrWrap_both :
    zpPtrHighAddr .wrap 0xFF#8 = 0x0000#16 ∧ zpPtrHighAddr .nowrap 0xFF#8 = 0x0100#16 ∧
    zpPtrHighAddr .wrap 0xFE#8 = 0x00FF#16 ∧ zpPtrHighAddr .nowrap 0xFE#8 = 0x00FF#16 := by decide

/-- `power_up` with the reset vector in the image, and with an override (70_reset_and_hazards.md R261, R262). -/
theorem test_launch :
    (launch { Params.atReset with prg := [(0x3FFC, 0x10#8), (0x3FFD, 0x80#8)] } [] none).toOption.map State.pc
      = some 0x8010#16 ∧
    (launch Params.atReset [0xEA#8] (some 0x0000#16)).toOption.map (fun t => (t.pc, t.s, t.p, t.ram))
      = some (0x0000#16, 0xFD#8, 0x04#8, [(0, 0xEA#8)]) := by decide

/-! ## For each statement with hypotheses, a state and operands that meet them, clause by clause at the boundaries -/

theorem test_witness_DecodedBytesAreTheEncoding :
    decode [0xAD#8, 0x34#8, 0x12#8, 0x99#8] = .ok (.ldaAbs 0x1234#16, [0x99#8]) := rfl

theorem test_witness_UnsupportedBytesFault :
    let st := withCode [0xFF#8] start
    st.status = .running ∧ busLoad st.pc st = .ok 0xFF#8 ∧ decodeByte 0xFF#8 = none := ⟨rfl, rfl, rfl⟩

/-- Each range of BusAccessByRange at both its ends, and the outcome there. -/
theorem test_witness_BusAccessByRange :
    busLoad 0x0000#16 start = .ok 0x00#8 ∧ busLoad 0x1FFF#16 start = .ok 0x00#8 ∧
    busLoad 0x2000#16 start = .error (.unimplementedRegion .ppu .read 0x2000#16) ∧
    busLoad 0x3FFF#16 start = .error (.unimplementedRegion .ppu .read 0x3FFF#16) ∧
    busLoad 0x4000#16 start = .error (.unimplementedRegion .apuIo .read 0x4000#16) ∧
    busLoad 0x401F#16 start = .error (.unimplementedRegion .apuIo .read 0x401F#16) ∧
    busLoad 0x4020#16 start = .error (.mapperRange .read 0x4020#16) ∧
    busLoad 0x7FFF#16 start = .error (.mapperRange .read 0x7FFF#16) ∧
    busLoad 0x8000#16 start = .ok 0x00#8 ∧ busLoad 0xFFFF#16 start = .ok 0x00#8 := by
  refine ⟨?_, ?_, ?_, ?_, ?_, ?_, ?_, ?_, ?_, ?_⟩ <;> rfl

/-- `a` = 0x1FFF with the image `b` = 0x07FF, and `b` = 0x2000, `b` = 0x07FE, which are no images. -/
theorem test_witness_RamMirrors :
    (0x1FFF#16).toNat ≤ 0x1FFF ∧ (0x07FF#16).toNat ≤ 0x1FFF ∧ (0x07FF#16).toNat % 0x0800 = (0x1FFF#16).toNat % 0x0800 ∧
    ¬((0x2000#16).toNat ≤ 0x1FFF ∧ (0x2000#16).toNat % 0x0800 = (0x1FFF#16).toNat % 0x0800) ∧
    ¬((0x07FE#16).toNat ≤ 0x1FFF ∧ (0x07FE#16).toNat % 0x0800 = (0x1FFF#16).toNat % 0x0800) := by decide

theorem test_witness_NromWindow :
    (start.params.prgUnits = .one ∧ 0x3FFF < 0x4000) ∧
    ({ start with params := { start.params with prgUnits := .two } }.params.prgUnits = .two ∧ 0x7FFF < 0x8000) := by
  decide

/-- The last word that lies in the mirrors, and the word across a mirror boundary (95_test_vectors.md S2). -/
theorem test_witness_WordStoreThenLoad :
    ((0x1FFE#16).toNat ≤ 0x1FFF ∧ (0x1FFE#16 + 1#16).toNat ≤ 0x1FFF) ∧
    ((0x07FF#16).toNat ≤ 0x1FFF ∧ (0x07FF#16 + 1#16).toNat ≤ 0x1FFF) := by decide

theorem test_witness_FetchSeesStore :
    busStore 0x0805#16 0xEA#8 start = .ok { start with ram := [(0x0005, 0xEA#8)] } ∧
    SameRamByte 0x0805#16 0x1805#16 := ⟨rfl, by decide⟩

theorem test_witness_ZeroPagePointerRead :
    { start with params := { start.params with zpPtrWrap := .wrap } }.params.zpPtrWrap = .wrap ∧
    start.params.zpPtrWrap = .nowrap ∧ (0xFE#8 : Byte) ≠ 0xFF#8 := by decide

/-- An operand read that succeeds at the last byte of the mirrors and at the first of PRG, and one that faults in between. -/
theorem test_witness_operand_reads :
    readSource (.mem (.abs 0x1FFF#16)) start = .ok 0x00#8 ∧ readSource (.mem (.abs 0x8000#16)) start = .ok 0x00#8 ∧
    readSource (.mem (.abs 0x2000#16)) start = .error (.unimplementedRegion .ppu .read 0x2000#16) ∧
    readSource (.mem (.abs 0x7FFF#16)) start = .error (.mapperRange .read 0x7FFF#16) := ⟨rfl, rfl, rfl, rfl⟩

theorem test_witness_LoadsResult :
    (Instr.ldaAbs 0x1FFF#16).mnemonic = .lda ∧ (Instr.ldxAbs 0x1FFF#16).mnemonic = .ldx ∧
    (Instr.ldyAbs 0x1FFF#16).mnemonic = .ldy ∧
    (Instr.ldaAbs 0x1FFF#16).operand = (Source.mem (.abs 0x1FFF#16)).operand := by decide

/-- A store at each end of each range. -/
theorem test_witness_StoresResult :
    Instr.mnemonic (.staAbs 0x1FFF#16) ∈ [.sta, .stx, .sty] ∧ Instr.mnemonic (.stxZpy 0x10#8) ∈ [.sta, .stx, .sty] ∧
    Instr.mnemonic (.styZpx 0x10#8) ∈ [.sta, .stx, .sty] ∧
    [0x0000#16, 0x1FFF#16, 0x2000#16, 0x3FFF#16, 0x4000#16, 0x401F#16, 0x4020#16, 0x7FFF#16, 0x8000#16, 0xFFFF#16].all
      (fun ea => (effAddr (.abs ea) start).toOption == some ea) = true := by decide

theorem test_witness_AdcResult :
    (Instr.adcImm 0x01#8).mnemonic = .adc ∧ readSource (.imm 0x01#8) start = .ok 0x01#8 ∧
    (Instr.adcImm 0x01#8).operand = (Source.imm 0x01#8).operand := ⟨rfl, rfl, rfl⟩

theorem test_witness_SbcResult :
    (Instr.sbcAbs 0x2000#16).mnemonic = .sbc ∧
    readSource (.mem (.abs 0x2000#16)) start = .error (.unimplementedRegion .ppu .read 0x2000#16) ∧
    (Instr.sbcImm 0x01#8).mnemonic = .sbc ∧ readSource (.imm 0x01#8) start = .ok 0x01#8 := ⟨rfl, rfl, rfl, rfl⟩

/-- ADC and SBC that run, each at a signed overflow. -/
theorem test_witness_OverflowIsSigned :
    (∃ t, exec (.adcImm 0x01#8) { start with a := 0x7F#8 } = .next t) ∧
    (∃ t, exec (.sbcImm 0x01#8) { start with a := 0x80#8 } = .next t) ∧
    (Instr.adcImm 0x01#8).operand = (Source.imm 0x01#8).operand ∧
    (Instr.sbcImm 0x01#8).operand = (Source.imm 0x01#8).operand := ⟨⟨_, rfl⟩, ⟨_, rfl⟩, rfl, rfl⟩

theorem test_witness_ComparesResult :
    (Instr.cmpImm 0x80#8).mnemonic = .cmp ∧ (Instr.cpxImm 0x80#8).mnemonic = .cpx ∧ (Instr.cpyImm 0x80#8).mnemonic = .cpy ∧
    readSource (.imm 0x80#8) start = .ok 0x80#8 := ⟨rfl, rfl, rfl, rfl⟩

/-- The three clauses of a read-modify-write: RAM's last mirror, PRG's ends, and an address that does not read. -/
theorem test_witness_IncDecMemoryResult :
    Instr.mnemonic (.incAbs 0x1FFF#16) ∈ [.inc, .dec] ∧ Instr.mnemonic (.decAbs 0x1FFF#16) ∈ [.inc, .dec] ∧
    busLoad 0x1FFF#16 start = .ok 0x00#8 ∧ (0x1FFF#16).toNat ≤ 0x1FFF ∧
    0x8000 ≤ (0x8000#16).toNat ∧ 0x8000 ≤ (0xFFFF#16).toNat ∧
    busLoad 0x4020#16 start = .error (.mapperRange .read 0x4020#16) := by
  refine ⟨by decide, by decide, rfl, by decide, by decide, by decide, rfl⟩

theorem test_witness_LogicResult :
    Instr.mnemonic (.andImm 0xF0#8) ∈ [.and, .ora, .eor] ∧ Instr.mnemonic (.oraIzx 0x20#8) ∈ [.and, .ora, .eor] ∧
    Instr.mnemonic (.eorIzy 0x30#8) ∈ [.and, .ora, .eor] ∧ readSource (.imm 0xF0#8) start = .ok 0xF0#8 := by
  refine ⟨by decide, by decide, by decide, rfl⟩

theorem test_witness_BitResult :
    (Instr.bitAbs 0x1FFF#16).mnemonic = .bit ∧ readSource (.mem (.abs 0x1FFF#16)) start = .ok 0x00#8 ∧
    readSource (.mem (.abs 0x401F#16)) start = .error (.unimplementedRegion .apuIo .read 0x401F#16) := ⟨rfl, rfl, rfl⟩

/-- The accumulator form, and the three clauses of a memory form. -/
theorem test_witness_ShiftsResult :
    Instr.mnemonic .aslAcc ∈ [.asl, .lsr, .rol, .ror] ∧ Instr.operand .aslAcc = .acc ∧
    Instr.mnemonic (.rorAbs 0x1FFF#16) ∈ [.asl, .lsr, .rol, .ror] ∧ Instr.operand (.rorAbs 0x1FFF#16) ≠ .acc ∧
    busLoad 0x1FFF#16 start = .ok 0x00#8 ∧ 0x8000 ≤ (0x8000#16).toNat ∧
    busLoad 0x3FFF#16 start = .error (.unimplementedRegion .ppu .read 0x3FFF#16) := by
  refine ⟨by decide, rfl, by decide, by decide, rfl, by decide, rfl⟩

/-- Each flag that a branch tests, with the branch taken and not taken. -/
theorem test_witness_BranchesResult :
    branchCondition (Instr.bcs 0x80#8).mnemonic = some (.c, true) ∧ getFlag .c 0x05#8 = true ∧ getFlag .c 0x04#8 ≠ true ∧
    branchCondition (Instr.bcc 0x7F#8).mnemonic = some (.c, false) ∧ getFlag .c 0x04#8 = false ∧
    branchCondition (Instr.beq 0x80#8).mnemonic = some (.z, true) ∧ getFlag .z 0x06#8 = true ∧ getFlag .z 0x04#8 ≠ true ∧
    branchCondition (Instr.bmi 0x80#8).mnemonic = some (.n, true) ∧ getFlag .n 0x84#8 = true ∧ getFlag .n 0x04#8 ≠ true ∧
    branchCondition (Instr.bvs 0x80#8).mnemonic = some (.v, true) ∧ getFlag .v 0x44#8 = true ∧ getFlag .v 0x04#8 ≠ true := by
  decide

/-- The four clauses of the indirect jump: both loads, the first load faulting, the second faulting at 0x1FFF + 1. -/
theorem test_witness_JmpResult :
    busLoad 0x07FF#16 start = .ok 0x00#8 ∧ busLoad (0x07FF#16 + 1#16) start = .ok 0x00#8 ∧
    busLoad 0x2000#16 start = .error (.unimplementedRegion .ppu .read 0x2000#16) ∧
    busLoad 0x1FFF#16 start = .ok 0x00#8 ∧
    busLoad (0x1FFF#16 + 1#16) start = .error (.unimplementedRegion .ppu .read 0x2000#16) := ⟨rfl, rfl, rfl, rfl, rfl⟩

theorem test_witness_PullsResult :
    0x00#8 = Memory.get start.ram (0x100 + (start.s + 1#8).toNat) := rfl

theorem test_witness_NopResult :
    let st := withCode [0xEA#8] start
    st.status = .running ∧ busLoad st.pc st = .ok 0xEA#8 := ⟨rfl, rfl⟩

theorem test_witness_StepRunsDecoded :
    let st := withCode [0xA9#8, 0x42#8] start
    st.status = .running ∧ loadBytes st.pc [0xA9#8, 0x42#8].length st = .ok [0xA9#8, 0x42#8] ∧
      decode [0xA9#8, 0x42#8] = .ok (.ldaImm 0x42#8, []) := ⟨rfl, rfl, rfl⟩

/-- The opcode fetch faulting, the operand byte faulting (V299) and the second operand byte faulting (V300). -/
theorem test_witness_FetchFaultsEndTheStep :
    (let st := { start with pc := 0x4020#16 }
     st.status = .running ∧ busLoad st.pc st = .error (.mapperRange .read 0x4020#16)) ∧
    (let st := withCodeAt 0x1FFF#16 [0xA9#8] start
     busLoad st.pc st = .ok 0xA9#8 ∧ decodeByte 0xA9#8 = some (.lda, .imm) ∧ 1 ≤ Format.imm.operandBytes ∧
       busLoad (st.pc + 1#16) st = .error (.unimplementedRegion .ppu .read 0x2000#16)) ∧
    (let st := withCodeAt 0x1FFE#16 [0xAD#8, 0x00#8] start
     busLoad st.pc st = .ok 0xAD#8 ∧ decodeByte 0xAD#8 = some (.lda, .abs) ∧ Format.abs.operandBytes = 2 ∧
       busLoad (st.pc + 1#16) st = .ok 0x00#8 ∧
       busLoad (st.pc + 2#16) st = .error (.unimplementedRegion .ppu .read 0x2000#16)) := by
  refine ⟨⟨rfl, rfl⟩, ⟨rfl, rfl, by decide, rfl⟩, ⟨rfl, rfl, rfl, rfl, rfl⟩⟩

theorem test_witness_StepIsFetchThenExecute :
    let st := withCode [0xEA#8] start
    st.status = .running ∧ busLoad st.pc st = .ok 0xEA#8 := ⟨rfl, rfl⟩

/-- A state that meets the invariant with something listed in both stores, and steps to a next state. -/
theorem test_witness_StepKeepsInvariant :
    let st := withCode [0xE6#8, 0x10#8] { start with params := { start.params with prg := [(0x3FFF, 0x80#8)] } }
    st.Inv ∧ ∃ t, step st = .next t := ⟨by decide, _, rfl⟩

theorem test_witness_StepKeepsParameters : ∃ t, step (withCode [0xEA#8] start) = .next t := ⟨_, rfl⟩

theorem test_witness_FlagFrame :
    (∃ t, exec (.adcImm 0x01#8) start = .next t) ∧ Instr.mnemonic (.adcImm 0x01#8) ∉ flagWriters .d := ⟨⟨_, rfl⟩, by decide⟩

theorem test_witness_RegisterFrame :
    (∃ t, exec (.jsr 0x0300#16) start = .next t) ∧
    Instr.mnemonic (.jsr 0x0300#16) ∉ [.lda, .txa, .tya, .pla, .adc, .sbc, .and, .ora, .eor] ∧
    Instr.operand (.jsr 0x0300#16) ≠ .acc ∧ Instr.mnemonic (.jsr 0x0300#16) ∉ [.ldx, .tax, .tsx, .inx, .dex] ∧
    (∃ t, exec .inx start = .next t) ∧
    Instr.mnemonic .inx ∉ [.txs, .pha, .php, .pla, .plp, .jsr, .rts, .brk, .rti] ∧
    branchCondition (Instr.mnemonic .inx) = none ∧ Instr.mnemonic .inx ∉ [.jmp, .jsr, .rts, .brk, .rti] := by
  refine ⟨⟨_, rfl⟩, by decide, by decide, by decide, ⟨_, rfl⟩, by decide, by decide, by decide⟩

/-- A store to 0x0805 and an address that is no image of it; and an instruction that stores nothing. -/
theorem test_witness_MemoryFrame :
    (∃ t, exec (.staAbs 0x0805#16) start = .next t) ∧ storedAddrs (.staAbs 0x0805#16) start = [0x0805#16] ∧
    (∀ b ∈ storedAddrs (.staAbs 0x0805#16) start, ¬ SameRamByte b 0x0006#16) ∧
    SameRamByte 0x0805#16 0x0005#16 ∧ storedAddrs (.cmpAbs 0x0805#16) start = [] ∧
    storedAddrs .brk { start with s := 0x01#8 } = [0x0101#16, 0x0100#16, 0x01FF#16] := by
  have sta : storedAddrs (.staAbs 0x0805#16) start = [0x0805#16] := rfl
  refine ⟨⟨_, rfl⟩, sta, ?_, by decide, by decide, by decide⟩
  rw [sta]
  intro b hb
  rw [List.mem_singleton.1 hb]
  decide

theorem test_witness_FaultCauses :
    exec (.staAbs 0x8000#16) start = .fault (.readOnlyWrite 0x8000#16) ∧
    exec (.staAbs 0x7FFF#16) start = .fault (.mapperRange .write 0x7FFF#16) ∧
    exec (.jmpInd 0x2000#16) start = .fault (.unimplementedRegion .ppu .read 0x2000#16) := ⟨rfl, rfl, rfl⟩

/-- ADC with D, the flag whose inertness R159 states: one run that completes and one that faults. -/
theorem test_witness_InertFlags :
    .d ∈ [Flag.i, .d, .b, .u] ∧ Instr.mnemonic (.adcImm 0x01#8) ∉ flagWriters .d ∧
    Instr.mnemonic (.adcImm 0x01#8) ∉ [.php, .brk] ∧ (∃ t, exec (.adcImm 0x01#8) start = .next t) ∧
    exec (.adcAbs 0x2000#16) start = .fault (.unimplementedRegion .ppu .read 0x2000#16) := by
  refine ⟨by decide, by decide, by decide, ⟨_, rfl⟩, rfl⟩

theorem test_witness_FaultedIsAbsorbing :
    start.status = .running ∧
    step (withCode [0x02#8] start) = .fault (.unsupportedOpcode 0x02#8 0x0200#16) ∧
    { start with status := .faulted (.readOnlyWrite 0x8000#16) }.status = .faulted (.readOnlyWrite 0x8000#16) :=
  ⟨rfl, rfl, rfl⟩

theorem test_witness_SafeRunIsCompletedSteps : SafeFor 2 (withCode [0xEA#8, 0xEA#8] start) := rfl

/-- The three outcomes of a construction, each at the boundary of its condition. -/
theorem test_witness_MapperConstruction :
    (∃ prg : List Byte, prg.length < PrgUnits.one.count * 16384) ∧
    (∃ prg : List Byte, PrgUnits.one.count * 16384 ≤ prg.length) ∧ 8191 < 1 * 8192 ∧
    (∃ prg : List Byte, PrgUnits.two.count * 16384 ≤ prg.length) ∧ 1 * 8192 ≤ 8192 := by
  have len (n : Nat) : (List.replicate n (0xEA#8 : Byte)).length = n := List.length_replicate
  exact ⟨⟨_, (len 16383).trans_lt (by norm_num [PrgUnits.count])⟩,
    ⟨_, (len 16384).ge.trans' (by norm_num [PrgUnits.count])⟩, by norm_num,
    ⟨_, (len 32768).ge.trans' (by norm_num [PrgUnits.count])⟩, by norm_num⟩

end Sys2Proof.Machine.Tests
end

section
/-! SUPPORT. The family of 10_state.md: what each register, each flag, RAM and the parameters can be after an instruction
or a step that completes; the inert flags; faulted machines; creation and reset. -/

namespace Sys2Proof.Machine

/-! ## Every state an instruction can complete in -/

/-- What each instruction without an operand does, the accumulator forms of the shifts apart: the table that
`exec_implied` ties to `exec`. -/
def impliedEffect : Mnemonic → Option (State → State)
  | .tax => some fun t => t.putX t.a
  | .tay => some fun t => t.putY t.a
  | .txa => some fun t => t.putA t.x
  | .tya => some fun t => t.putA t.y
  | .tsx => some fun t => t.putX t.s
  | .txs => some fun t => t.setS t.x
  | .inx => some fun t => t.putX (t.x + 1#8)
  | .iny => some fun t => t.putY (t.y + 1#8)
  | .dex => some fun t => t.putX (t.x - 1#8)
  | .dey => some fun t => t.putY (t.y - 1#8)
  | .rts => some fun t => (t.setS (t.s + 2#8)).setPc (wordOf (Memory.get t.ram (stackIndex (t.s + 2#8)))
      (Memory.get t.ram (stackIndex (t.s + 1#8))) + 1#16)
  | .pha => some fun t => (t.setRam (Memory.set t.ram (stackIndex t.s) t.a)).setS (t.s - 1#8)
  | .pla => some fun t => (t.setS (t.s + 1#8)).putA (Memory.get t.ram (stackIndex (t.s + 1#8)))
  | .php => some fun t => (t.setRam (Memory.set t.ram (stackIndex t.s) t.p)).setS (t.s - 1#8)
  | .plp => some fun t => (t.setS (t.s + 1#8)).setP (Memory.get t.ram (stackIndex (t.s + 1#8)))
  | .clc => some fun t => t.putFlag .c false
  | .sec => some fun t => t.putFlag .c true
  | .cli => some fun t => t.putFlag .i false
  | .sei => some fun t => t.putFlag .i true
  | .clv => some fun t => t.putFlag .v false
  | .cld => some fun t => t.putFlag .d false
  | .sed => some fun t => t.putFlag .d true
  | .nop => some id
  | .brk => some fun t => { t with
      ram := Memory.set (Memory.set (Memory.set t.ram (stackIndex t.s) (hi8 (t.pc + 1#16)))
        (stackIndex (t.s - 1#8)) (lo8 (t.pc + 1#16))) (stackIndex (t.s - 2#8)) (putFlag .b true t.p)
      s := t.s - 3#8
      p := putFlag .i true (putFlag .b true t.p)
      pc := prgWord Config.brkVector t.params }
  | .rti => some fun t => { t with
      p := Memory.get t.ram (stackIndex (t.s + 1#8))
      pc := wordOf (Memory.get t.ram (stackIndex (t.s + 3#8))) (Memory.get t.ram (stackIndex (t.s + 2#8)))
      s := t.s + 3#8 }
  | _ => none

/-- An instruction without an operand always completes, in the state of the table. -/
theorem exec_implied {i : Instr} {e : State → State} (h : impliedEffect i.mnemonic = some e) (st : State) :
    exec i st = .next (e st) := by
  cases i <;> cases h
  case rts => exact exec_rts st
  case pha => exact exec_pha st
  case pla => exact exec_pla st
  case php => exact exec_php st
  case plp => exact exec_plp st
  case brk => exact exec_brk st
  case rti => exact exec_rti st
  all_goals rfl

/-- Every listed instruction without an operand has its row in the table. -/
theorem impliedEffect_isSome {i : Instr} (h : i ∈ impliedInstrs) : ∃ e, impliedEffect i.mnemonic = some e :=
  Option.isSome_iff_exists.1 ((by decide : ∀ j ∈ impliedInstrs, (impliedEffect j.mnemonic).isSome = true) i h)

/-- The states in which an instruction can complete, by its shape. -/
inductive Completes (i : Instr) (s : State) : State → Prop
  | read (e : Byte → State → State) (v : Byte) (h : readEffect i.mnemonic = some e) : Completes i s (e v s)
  | store (g : State → Byte) (k : Nat) (v : Byte) (h : storeValue i.mnemonic = some g) (hk : k < Config.ramSize) :
      Completes i s (s.setRam (Memory.set s.ram k v))
  | modifyA (f : Byte → Byte → Byte × Byte) (h : modifyFn i.mnemonic = some f) (ho : i.operand = .acc) :
      Completes i s ((s.setA (f s.a s.p).1).setP (f s.a s.p).2)
  | modifyMem (f : Byte → Byte → Byte × Byte) (k : Nat) (v : Byte) (h : modifyFn i.mnemonic = some f)
      (hk : k < Config.ramSize) : Completes i s ((s.setRam (Memory.set s.ram k (f v s.p).1)).setP (f v s.p).2)
  | branch (q : Flag × Bool) (w : Word) (h : branchCondition i.mnemonic = some q) : Completes i s (s.setPc w)
  | jump (w : Word) (h : i.mnemonic = .jmp) : Completes i s (s.setPc w)
  | call (w : Word) (h : i.mnemonic = .jsr) : Completes i s (((s.setRam (Memory.set
      (Memory.set s.ram (stackIndex s.s) (hi8 (s.pc - 1#16))) (stackIndex (s.s - 1#8)) (lo8 (s.pc - 1#16)))).setS
      (s.s - 2#8)).setPc w)
  | implied (e : State → State) (h : impliedEffect i.mnemonic = some e) : Completes i s (e s)

/-- Everything an instruction that completes can do. -/
theorem exec_completes {i : Instr} {s t : State} (h : exec i s = .next t) : Completes i s t := by
  have inRam (a : Word) : a.toNat % 0x800 < Config.ramSize := Nat.mod_lt _ (by decide)
  cases exec_shape i with
  | read e he =>
    obtain ⟨src, _, hx⟩ := exec_read he
    obtain ⟨v, _, rfl⟩ := withSource_eq_next.1 (hx s ▸ h)
    exact .read e v he
  | store g hg =>
    obtain ⟨m, _, hx⟩ := exec_store hg
    obtain ⟨ea, _, _, rfl⟩ := storeAt_eq_next.1 (hx s ▸ h)
    exact .store g _ _ hg (inRam ea)
  | modify f hf =>
    obtain ⟨ho, hx⟩ | ⟨m, _, hx⟩ := exec_modify hf
    · cases (hx s).symm.trans h
      exact .modifyA f hf ho
    · obtain ⟨ea, v, _, _, _, rfl⟩ := modifyAt_eq_next.1 (hx s ▸ h)
      exact .modifyMem f _ v hf (inRam ea)
  | branch q hq =>
    obtain ⟨d, _, hx⟩ := exec_branch hq
    cases (hx s).symm.trans h
    split
    · exact .branch q _ hq
    · exact .branch q s.pc hq
  | implied hi =>
    obtain ⟨e, he⟩ := impliedEffect_isSome hi
    cases (exec_implied he s).symm.trans h
    exact .implied e he
  | jmpAbs w hw =>
    subst hw; cases h
    exact .jump w rfl
  | jmpInd w hw =>
    subst hw
    rw [exec_jmpInd, finish_eq_next, bind_eq_ok] at h
    obtain ⟨ea, _, ht⟩ := h
    cases ht
    exact .jump ea rfl
  | jsr w hw =>
    subst hw
    cases (exec_jsr w s).symm.trans h
    exact .call w rfl

/-! ## The frame of the registers (10_state.md R21 to R25) -/

/-- The registers, parameters and run status that an instruction of mnemonic `m` and operand `o` keeps, between a state
and the next. -/
def RegistersKept (m : Mnemonic) (o : Operand) (s t : State) : Prop :=
  (m ∉ [.lda, .txa, .tya, .pla, .adc, .sbc, .and, .ora, .eor] → o ≠ .acc → t.a = s.a) ∧
  (m ∉ [.ldx, .tax, .tsx, .inx, .dex] → t.x = s.x) ∧
  (m ∉ [.ldy, .tay, .iny, .dey] → t.y = s.y) ∧
  (m ∉ [.txs, .pha, .php, .pla, .plp, .jsr, .rts, .brk, .rti] → t.s = s.s) ∧
  (branchCondition m = none → m ∉ [.jmp, .jsr, .rts, .brk, .rti] → t.pc = s.pc) ∧
  t.params = s.params ∧ t.status = s.status

theorem readEffect_registersKept {m : Mnemonic} {e : Byte → State → State} (h : readEffect m = some e) (o : Operand)
    (v : Byte) (s : State) : RegistersKept m o s (e v s) := by
  cases m <;> cases h <;> simp [RegistersKept]

theorem impliedEffect_registersKept {m : Mnemonic} {e : State → State} (h : impliedEffect m = some e) (o : Operand)
    (s : State) : RegistersKept m o s (e s) := by
  cases m <;> cases h <;> simp [RegistersKept]

theorem exec_registersKept {i : Instr} {s t : State} (h : exec i s = .next t) :
    RegistersKept i.mnemonic i.operand s t := by
  cases exec_completes h with
  | read e v he => exact readEffect_registersKept he _ v s
  | implied e he => exact impliedEffect_registersKept he _ s
  | store | modifyMem => simp [RegistersKept]
  | modifyA f hf ho => simp [RegistersKept, ho]
  | branch q w hq => simp [RegistersKept, hq]
  | jump w hm | call w hm => simp [RegistersKept, hm]

/-- Settles O50: by the shapes of the instructions. -/
theorem registerFrame : Obligations.RegisterFrame := fun _ _ _ => exec_registersKept

/-! ## The frame of RAM and the invariant of the state (10_state.md R30, R31) -/

/-- `n` is `m` after writes of single bytes, each inside internal RAM. -/
inductive RamWrites (m : Memory) : Memory → Prop
  | refl : RamWrites m m
  | set {n : Memory} {k : Nat} (h : RamWrites m n) (hk : k < Config.ramSize) (v : Byte) : RamWrites m (Memory.set n k v)

theorem RamWrites.wf {m n : Memory} (h : RamWrites m n) (hm : Memory.wf m) : Memory.wf n := by
  induction h with
  | refl => exact hm
  | set _ _ v ih => exact Memory.wf_set ih _ v

theorem RamWrites.within {m n : Memory} (h : RamWrites m n) (hm : Memory.within m Config.ramSize) :
    Memory.within n Config.ramSize := by
  induction h with
  | refl => exact hm
  | set _ hk v ih => exact Memory.within_set ih hk v

theorem stackIndex_lt_ramSize (sp : Byte) : stackIndex sp < Config.ramSize := by
  have := sp.isLt
  simp only [stackIndex, Config.ramSize]; omega

theorem RamWrites.stack {m n : Memory} (h : RamWrites m n) (sp v : Byte) :
    RamWrites m (Memory.set n (stackIndex sp) v) := h.set (stackIndex_lt_ramSize sp) v

theorem readEffect_ram {m : Mnemonic} {e : Byte → State → State} (h : readEffect m = some e) (v : Byte) (s : State) :
    (e v s).ram = s.ram := by
  cases m <;> cases h <;> rfl

/-- Of the instructions without an operand, only PHA, PHP and BRK write RAM. -/
theorem impliedEffect_ramWrites {m : Mnemonic} {e : State → State} (h : impliedEffect m = some e) (s : State) :
    RamWrites s.ram (e s).ram := by
  cases m <;> cases h
  case pha => exact .stack .refl _ _
  case php => exact .stack .refl _ _
  case brk => exact ((RamWrites.refl.stack _ _).stack _ _).stack _ _
  all_goals exact .refl

/-- An instruction changes RAM by writes of bytes inside it only. -/
theorem exec_ramWrites {i : Instr} {s t : State} (h : exec i s = .next t) : RamWrites s.ram t.ram := by
  cases exec_completes h with
  | read e v he => rw [readEffect_ram he]; exact .refl
  | implied e he => exact impliedEffect_ramWrites he s
  | store g k v _ hk => exact .set .refl hk v
  | modifyMem f k v _ hk => exact .set .refl hk _
  | call => exact (RamWrites.refl.stack _ _).stack _ _
  | modifyA | branch | jump => exact .refl

theorem exec_params {i : Instr} {s t : State} (h : exec i s = .next t) : t.params = s.params := by
  obtain ⟨_, _, _, _, _, hq, _⟩ := exec_registersKept h
  exact hq

theorem exec_status {i : Instr} {s t : State} (h : exec i s = .next t) : t.status = s.status := by
  obtain ⟨_, _, _, _, _, _, hr⟩ := exec_registersKept h
  exact hr

theorem exec_keeps_inv {i : Instr} {s t : State} (hs : s.Inv) (h : exec i s = .next t) : t.Inv := by
  obtain ⟨hwf, hin, himage⟩ := hs
  have hram := exec_ramWrites h
  rw [State.Inv, exec_params h]
  exact ⟨hram.wf hwf, hram.within hin, himage⟩

/-- Settles O46: every meaning keeps the invariant, and the fetch of a step moves only `pc`. -/
theorem stepKeepsInvariant : Obligations.StepKeepsInvariant := fun _ _ =>
  step_induction (fun _ _ hs => hs) fun _ _ _ => exec_keeps_inv

/-- Settles O48: a step that completes starts in a running machine and is the meaning of an instruction, which keeps both. -/
theorem stepKeepsParameters : Obligations.StepKeepsParameters := by
  intro st t h
  obtain ⟨hrun, i, w, hi⟩ := step_eq_next h
  have hparams := exec_params hi
  have hstatus := exec_status hi
  exact ⟨hparams, hstatus.trans hrun⟩

/-- Settles O47: both stores of the reset state are empty. -/
theorem resetMeetsInvariant : Obligations.ResetMeetsInvariant :=
  ⟨Memory.wf_nil, List.forall_mem_nil _, Memory.wf_nil, List.forall_mem_nil _⟩

/-! ## The frame of the flags (10_state.md R27) -/

theorem readEffect_flagKept {m : Mnemonic} {e : Byte → State → State} (h : readEffect m = some e) {f : Flag}
    (hf : m ∉ flagWriters f) (v : Byte) (s : State) : getFlag f (e v s).p = getFlag f s.p := by
  cases m <;> cases h
  case adc | sbc => cases f <;> simp_all [flagWriters, subWithCarry, getFlag_addWithCarry]
  case cmp | cpx | cpy => cases f <;> simp_all [flagWriters, getFlag_compareFlags]
  case bit => cases f <;> simp_all [flagWriters, getFlag_bitFlags]
  all_goals cases f <;> simp_all [flagWriters]

theorem modifyFn_flagKept {m : Mnemonic} {g : Byte → Byte → Byte × Byte} (h : modifyFn m = some g) {f : Flag}
    (hf : m ∉ flagWriters f) (v p : Byte) : getFlag f (g v p).2 = getFlag f p := by
  cases m <;> cases h
  case inc | dec => cases f <;> simp_all [flagWriters, incByte, decByte]
  all_goals cases f <;> simp_all [flagWriters, aslByte, lsrByte, rolByte, rorByte, getFlag_shiftFlags]

theorem impliedEffect_flagKept {m : Mnemonic} {e : State → State} (h : impliedEffect m = some e) {f : Flag}
    (hf : m ∉ flagWriters f) (s : State) : getFlag f (e s).p = getFlag f s.p := by
  cases m <;> cases h
  case plp | rti => cases f <;> exact absurd hf (by decide)
  all_goals cases f <;> simp_all [flagWriters]

/-- Settles O49: by the shapes of the instructions; stores, branches, jumps and JSR keep `P`. -/
theorem flagFrame : Obligations.FlagFrame := by
  intro i st t f h hf
  cases exec_completes h with
  | read e v he => exact readEffect_flagKept he hf v st
  | implied e he => exact impliedEffect_flagKept he hf st
  | modifyA g hg | modifyMem g _ _ hg => exact modifyFn_flagKept hg hf _ st.p
  | store | branch | jump | call => rfl

/-! ## The inert flags (10_state.md R27 to R29) -/

/-- The flags that no computation reads: I, D, B and bit 5. -/
def InertFlag (f : Flag) : Prop := f ∈ [Flag.i, .d, .b, .u]

theorem InertFlag.ne {f : Flag} (h : InertFlag f) : f ≠ .c ∧ f ≠ .z ∧ f ≠ .v ∧ f ≠ .n := by
  revert h; cases f <;> simp [InertFlag]

/-- Writes to different flags commute. -/
theorem putFlag_comm {f g : Flag} (h : f ≠ g) (b c : Bool) (p : Byte) :
    putFlag g c (putFlag f b p) = putFlag f b (putFlag g c p) := by
  apply eq_of_flags
  intro k
  simp only [getFlag_putFlag]
  by_cases hk : k = g
  · simp [hk, h.symm]
  · simp [hk]

theorem State.putFlag_comm {f g : Flag} (h : f ≠ g) (b c : Bool) (s : State) :
    (s.putFlag f b).putFlag g c = (s.putFlag g c).putFlag f b :=
  congrArg s.setP (Machine.putFlag_comm h b c s.p)

section
variable {f : Flag} (hf : InertFlag f) (b : Bool)
include hf

theorem setZN_putFlag (v p : Byte) : setZN v (putFlag f b p) = putFlag f b (setZN v p) := by
  obtain ⟨_, hz, _, hn⟩ := hf.ne
  simp only [setZN, putFlag_comm hz, putFlag_comm hn]

theorem getCarry_putFlag (p : Byte) : getFlag .c (putFlag f b p) = getFlag .c p := by
  simp [hf.ne.1.symm]

/-- ADC does not read an inert flag, D least of all (42_arithmetic_compare.md R159). -/
theorem addWithCarry_putFlag (a m p : Byte) :
    addWithCarry a m (putFlag f b p) = ((addWithCarry a m p).1, putFlag f b (addWithCarry a m p).2) := by
  obtain ⟨hc, _, hv, _⟩ := hf.ne
  simp only [addWithCarry, getCarry_putFlag hf, putFlag_comm hc, putFlag_comm hv, setZN_putFlag hf]

theorem compareFlags_putFlag (r m p : Byte) :
    compareFlags r m (putFlag f b p) = putFlag f b (compareFlags r m p) := by
  simp only [compareFlags, putFlag_comm hf.ne.1, setZN_putFlag hf]

theorem bitFlags_putFlag (a m p : Byte) : bitFlags a m (putFlag f b p) = putFlag f b (bitFlags a m p) := by
  obtain ⟨_, hz, hv, hn⟩ := hf.ne
  simp only [bitFlags, putFlag_comm hz, putFlag_comm hv, putFlag_comm hn]

theorem shiftFlags_putFlag (out : Bool) (r p : Byte) :
    shiftFlags out r (putFlag f b p) = putFlag f b (shiftFlags out r p) := by
  simp only [shiftFlags, putFlag_comm hf.ne.1, setZN_putFlag hf]

theorem State.flagZN_putFlag (s : State) (v : Byte) : (s.putFlag f b).flagZN v = (s.flagZN v).putFlag f b :=
  congrArg s.setP (setZN_putFlag hf b v s.p)

theorem State.putA_putFlag (s : State) (v : Byte) : (s.putFlag f b).putA v = (s.putA v).putFlag f b :=
  State.flagZN_putFlag hf b (s.setA v) v

theorem State.putX_putFlag (s : State) (v : Byte) : (s.putFlag f b).putX v = (s.putX v).putFlag f b :=
  State.flagZN_putFlag hf b (s.setX v) v

theorem State.putY_putFlag (s : State) (v : Byte) : (s.putFlag f b).putY v = (s.putY v).putFlag f b :=
  State.flagZN_putFlag hf b (s.setY v) v

theorem readEffect_putFlag {m : Mnemonic} {e : Byte → State → State} (h : readEffect m = some e) (v : Byte)
    (s : State) : e v (s.putFlag f b) = (e v s).putFlag f b := by
  cases m <;> cases h
  case adc | sbc => simp only [subWithCarry, State.putFlag_p, State.putFlag_a, addWithCarry_putFlag hf]; rfl
  case cmp | cpx | cpy => exact congrArg s.setP (compareFlags_putFlag hf b _ v s.p)
  case bit => exact congrArg s.setP (bitFlags_putFlag hf b _ v s.p)
  case lda | and | ora | eor => exact State.putA_putFlag hf b s _
  case ldx => exact State.putX_putFlag hf b s v
  case ldy => exact State.putY_putFlag hf b s v

theorem modifyFn_putFlag {m : Mnemonic} {g : Byte → Byte → Byte × Byte} (h : modifyFn m = some g) (v p : Byte) :
    g v (putFlag f b p) = ((g v p).1, putFlag f b (g v p).2) := by
  cases m <;> cases h <;>
    simp only [incByte, decByte, aslByte, lsrByte, rolByte, rorByte, getCarry_putFlag hf, setZN_putFlag hf,
      shiftFlags_putFlag hf]

/-- The instructions without an operand that neither write the flag nor push `P`. -/
theorem impliedEffect_putFlag {m : Mnemonic} {e : State → State} (h : impliedEffect m = some e)
    (hw : m ∉ flagWriters f) (hp : m ∉ [.php, .brk]) (s : State) : e (s.putFlag f b) = (e s).putFlag f b := by
  cases m <;> cases h
  case php | brk => exact absurd hp (by decide)
  case plp | rti => exact (hw (by cases f <;> decide)).elim
  case clc | sec | cli | sei | clv | cld | sed =>
    exact State.putFlag_comm (by rintro rfl; exact hw (by decide)) b _ s
  case txs | rts | pha | nop => rfl
  case txa | tya => exact State.putA_putFlag hf b s _
  case tax | tsx | inx | dex => exact State.putX_putFlag hf b s _
  case tay | iny | dey => exact State.putY_putFlag hf b s _
  case pla => exact State.putA_putFlag hf b (s.setS (s.s + 1#8)) _

/-- No branch tests an inert flag. -/
theorem branchCondition_ne {m : Mnemonic} {q : Flag × Bool} (h : branchCondition m = some q) : q.1 ≠ f := by
  obtain ⟨hc, hz, hv, hn⟩ := hf.ne
  cases m <;> cases h
  case bcc | bcs => exact hc.symm
  case beq | bne => exact hz.symm
  case bmi | bpl => exact hn.symm
  case bvc | bvs => exact hv.symm
end

/-- The outcome with a map applied to its next state. -/
def mapNext (g : State → State) : Host.Outcome State Fault Refusal → Host.Outcome State Fault Refusal
  | .next t => .next (g t)
  | .fault e => .fault e
  | .refused r => .refused r

/-! An access does not see `P`, so each shape of instruction passes a written flag on to its next state. -/

theorem busStore_putFlag (a : Word) (v : Byte) (s : State) (f : Flag) (b : Bool) :
    busStore a v (s.putFlag f b) = (busStore a v s).map (State.putFlag · f b) := by
  unfold busStore
  cases busTarget a <;> rfl

theorem effAddr_putFlag (m : MemMode) (s : State) (f : Flag) (b : Bool) :
    effAddr m (s.putFlag f b) = effAddr m s := effAddr_congr rfl rfl rfl rfl m

theorem withSource_putFlag {src : Source} {e : Byte → State → State} {f : Flag} {b : Bool} {s : State}
    (h : ∀ v, e v (s.putFlag f b) = (e v s).putFlag f b) :
    withSource src e (s.putFlag f b) = mapNext (State.putFlag · f b) (withSource src e s) := by
  have hread : readSource src (s.putFlag f b) = readSource src s := readSource_congr rfl rfl rfl rfl src
  cases hs : readSource src s with
  | ok v => rw [withSource_ok (hread.trans hs), withSource_ok hs, h]; rfl
  | error e => rw [withSource_error (hread.trans hs), withSource_error hs]; rfl

theorem storeAt_putFlag (m : MemMode) (v : Byte) (s : State) (f : Flag) (b : Bool) :
    storeAt m v (s.putFlag f b) = mapNext (State.putFlag · f b) (storeAt m v s) := by
  obtain ⟨ea, he⟩ := effAddr_ok m s
  simp only [storeAt, effAddr_putFlag, he, except_ok_bind, busStore_putFlag]
  cases busStore ea v s <;> rfl

theorem modifyAt_putFlag {m : MemMode} {g : Byte → Byte → Byte × Byte} {f : Flag} {b : Bool} {s : State}
    (h : ∀ v, g v (putFlag f b s.p) = ((g v s.p).1, putFlag f b (g v s.p).2)) :
    modifyAt m g (s.putFlag f b) = mapNext (State.putFlag · f b) (modifyAt m g s) := by
  obtain ⟨ea, he⟩ := effAddr_ok m s
  simp only [modifyAt, effAddr_putFlag, he, except_ok_bind, busLoad_putFlag]
  cases busLoad ea s with
  | error => rfl
  | ok v =>
    simp only [except_ok_bind, State.putFlag_p, h, busStore_putFlag]
    cases busStore ea (g v s.p).1 s <;> rfl

theorem exec_putFlag {i : Instr} {f : Flag} (hf : InertFlag f) (hw : i.mnemonic ∉ flagWriters f)
    (hp : i.mnemonic ∉ [.php, .brk]) (s : State) (b : Bool) :
    exec i (s.putFlag f b) = mapNext (State.putFlag · f b) (exec i s) := by
  cases exec_shape i with
  | read e he =>
    obtain ⟨src, _, hx⟩ := exec_read he
    simp only [hx, withSource_putFlag fun v => readEffect_putFlag hf b he v s]
  | store g hg =>
    obtain ⟨m, _, hx⟩ := exec_store hg
    have hval : g (s.putFlag f b) = g s := by
      generalize i.mnemonic = k at hg
      cases k <;> cases hg <;> rfl
    simp only [hx, hval, storeAt_putFlag]
  | modify g hg =>
    have hgf (v : Byte) := modifyFn_putFlag hf b hg v s.p
    obtain ⟨_, hx⟩ | ⟨m, _, hx⟩ := exec_modify hg
    · simp only [hx, modifyA, State.putFlag_p, State.putFlag_a, hgf]; rfl
    · simp only [hx, modifyAt_putFlag hgf]
  | branch q hq =>
    obtain ⟨d, _, hx⟩ := exec_branch hq
    simp only [hx, branchOn, State.putFlag_p, getFlag_putFlag, branchCondition_ne hf hq, if_false]
    split <;> rfl
  | implied hi =>
    obtain ⟨e, he⟩ := impliedEffect_isSome hi
    rw [exec_implied he, exec_implied he, impliedEffect_putFlag hf b he hw hp]; rfl
  | jmpAbs w h => subst h; rfl
  | jmpInd w h =>
    subst h
    have hload : loadWord w (s.putFlag f b) = loadWord w s := rfl
    rw [exec_jmpInd, exec_jmpInd, hload]
    cases loadWord w s <;> rfl
  | jsr w h => subst h; rw [exec_jsr, exec_jsr]; rfl

/-- Settles O53: writing the flag before the instruction is writing it after. -/
theorem inertFlags : Obligations.InertFlags := by
  intro i st f b hf hw hp
  have hx : exec i { st with p := putFlag f b st.p } = mapNext (State.putFlag · f b) (exec i st) :=
    exec_putFlag hf hw hp st b
  exact ⟨fun t h => by rw [hx, h]; rfl, fun e h => by rw [hx, h]; rfl⟩

/-! ## Faulted machines (10_state.md R32; 60_exceptions.md R255) -/

theorem step_faulted {st : State} {f : Fault} (h : st.status = .faulted f) : step st = .fault f := by
  simp [step, h]

theorem tick_faulted {st : State} {f : Fault} (h : st.status = .faulted f) : tick st = st := by
  simp [tick, h]

theorem tick_fault {st : State} {f : Fault} (hrun : st.status = .running) (h : step st = .fault f) :
    tick st = haltWith f st := by
  simp [tick, hrun, h]

theorem run_faulted {st : State} {f : Fault} (h : st.status = .faulted f) (n : Nat) : run n st = st := by
  induction n with
  | zero => rfl
  | succ n ih => rw [run, tick_faulted h, ih]

/-- Settles O56: the tick that meets the fault leaves a faulted machine, which `run` keeps. -/
theorem faultedIsAbsorbing : Obligations.FaultedIsAbsorbing := by
  refine fun st f n => ⟨fun hrun h => ?_, fun h => ⟨step_faulted h, run_faulted h n⟩⟩
  have hst : (tick st).status = .faulted f := by rw [tick_fault hrun h]; rfl
  have hkeep : run (n + 1) st = tick st := run_faulted hst n
  exact ⟨hkeep ▸ hst, hkeep⟩

/-! ## Flags by their masks (10_state.md R26; 40_engine_addressing.md R118) -/

/-- A flag is the bit of `P` under its mask. -/
theorem getFlag_eq_mask (f : Flag) (p : Byte) : getFlag f p = (p &&& f.mask != 0x00#8) := by
  have hmask : f.mask = BitVec.twoPow 8 f.index := by cases f <;> rfl
  have hne : BitVec.twoPow 8 f.index ≠ 0x00#8 := by cases f <;> decide
  rw [hmask, BitVec.and_twoPow, getFlag]
  cases p.getLsbD f.index <;> simp [hne]

/-- Settles O11: a flag reads by its mask, and `SetZN` by `getFlag_setZN`; a byte that is zero has bit 7 clear. -/
theorem setZnWritesTwoFlags : Obligations.SetZnWritesTwoFlags := by
  refine ⟨fun p => ⟨getFlag_eq_mask .c p, getFlag_eq_mask .z p, getFlag_eq_mask .i p, getFlag_eq_mask .d p,
    getFlag_eq_mask .b p, getFlag_eq_mask .u p, getFlag_eq_mask .v p, getFlag_eq_mask .n p⟩, fun v p => ⟨?_, ?_⟩⟩
  · have hn : v.getLsbD 7 = (v &&& 0x80#8 != 0x00#8) := getFlag_eq_mask .n v
    intro f
    rw [getFlag_setZN, hn]
    cases f <;> rfl
  · rintro ⟨hz, hn⟩
    have hv : v = 0x00#8 := by simpa using hz
    simp [hv] at hn

/-! ## Creation and reset (10_state.md R34; 70_reset_and_hazards.md R260, R261) -/

/-- The reset vector always reads. -/
theorem loadWord_resetVector (st : State) :
    loadWord Config.resetVector st = .ok (prgWord Config.resetVector st.params) :=
  loadWord_prg (by decide) (by decide) st

/-- Settles O55: creation is its definition, and power-up has a closed form. -/
theorem resetValues : Obligations.ResetValues := by
  have hp : putFlag .i true 0x00#8 = 0x04#8 := by decide
  refine ⟨fun q ram0 => ⟨rfl, _, loadWord_resetVector _, ?_⟩, rfl, rfl, rfl, rfl, rfl, rfl, ?_⟩
  · simp only [powerUp_eq, create, hp]
  · exact loadWord_resetVector _

end Sys2Proof.Machine
end

section
/-! SUPPORT. The family of 20_memory.md: what one bus access does in each address range, the images of a RAM byte, words,
fetches after stores, the bytes an instruction stores to, and the construction of the mapper. -/

namespace Sys2Proof.Machine

/-! ## One access in each address range (20_memory.md R42 to R56) -/

/-- The address decoder's mask is the remainder by the size of RAM (20_memory.md R43). -/
theorem toNat_and_ramMask (a : Word) : (a &&& 0x07FF#16).toNat = a.toNat % 0x800 :=
  (BitVec.toNat_and a 0x07FF#16).trans (Nat.and_two_pow_sub_one_eq_mod a.toNat 11)

theorem busLoad_unimplemented {a : Word} {r : Region} (h : busTarget a = .unimplemented r) (st : State) :
    busLoad a st = .error (.unimplementedRegion r .read a) := by
  simp [busLoad, h]

theorem busStore_unimplemented {a : Word} {r : Region} (h : busTarget a = .unimplemented r) (v : Byte) (st : State) :
    busStore a v st = .error (.unimplementedRegion r .write a) := by
  simp [busStore, h]

theorem busLoad_mapperRange {a : Word} (h : 0x4020 ≤ a.toNat) (h2 : a.toNat < 0x8000) (st : State) :
    busLoad a st = .error (.mapperRange .read a) := by
  simp [busLoad, busTarget_cartridge h, mapperLoad, h2]

theorem busStore_mapperRange {a : Word} (h : 0x4020 ≤ a.toNat) (h2 : a.toNat < 0x8000) (v : Byte) (st : State) :
    busStore a v st = .error (.mapperRange .write a) := by
  simp [busStore, busTarget_cartridge h, mapperStore, h2]

theorem busStore_prg {a : Word} (h : 0x8000 ≤ a.toNat) (v : Byte) (st : State) :
    busStore a v st = .error (.readOnlyWrite a) := by
  have hc : busTarget a = .cartridge := busTarget_cartridge (by omega)
  simp [busStore, hc, mapperStore, h]

/-- Settles O6: one lemma for each range and each kind of access. -/
theorem busAccessByRange : Obligations.BusAccessByRange := by
  intro a v st
  refine ⟨fun h => ?_, fun h h2 => ?_, fun h h2 => ?_, fun h h2 => ?_, fun h => ?_⟩
  · have hram : a.toNat < 0x2000 := Nat.lt_succ_of_le h
    rw [toNat_and_ramMask]
    exact ⟨busLoad_ram hram st, busStore_ram hram v st⟩
  · have ht := busTarget_ppu h h2
    exact ⟨busLoad_unimplemented ht st, busStore_unimplemented ht v st⟩
  · have ht := busTarget_apuIo h h2
    exact ⟨busLoad_unimplemented ht st, busStore_unimplemented ht v st⟩
  · have hlow : a.toNat < 0x8000 := Nat.lt_succ_of_le h2
    exact ⟨busLoad_mapperRange h hlow st, busStore_mapperRange h hlow v st⟩
  · exact ⟨busLoad_prg h st, busStore_prg h v st⟩

/-! ## RAM and its images (20_memory.md R42 to R45, R57 to R59, R65) -/

/-- Settles O7: a load after a store sees the byte exactly at the images of the stored one. -/
theorem ramMirrors : Obligations.RamMirrors := by
  intro a v st ha
  have hram : a.toNat < 0x2000 := Nat.lt_succ_of_le ha
  refine ⟨toNat_and_ramMask a, _, busStore_ram hram v st, fun b hb hmod => ?_, fun b hb => ?_⟩
  · have himage : SameRamByte a b := ⟨hram, Nat.lt_succ_of_le hb, hmod.symm⟩
    rw [busLoad_setRam_set hram, if_pos himage]
  · have himage : ¬ SameRamByte a b := fun ⟨_, hb2, hmod⟩ => hb ⟨Nat.le_of_lt_succ hb2, hmod.symm⟩
    rw [busLoad_setRam_set hram, if_neg himage]

/-- Two addresses in a row are never images of one byte. -/
theorem not_sameRamByte_add_one {a : Word} : ¬ SameRamByte (a + 1#16) a := by
  rintro ⟨_, ha, hmod⟩
  rw [BitVec.toNat_add, BitVec.toNat_ofNat] at hmod
  omega

theorem loadWord_ok {a : Word} {lo hi : Byte} {st : State} (hlo : busLoad a st = .ok lo)
    (hhi : busLoad (a + 1#16) st = .ok hi) : loadWord a st = .ok (wordOf hi lo) := by
  simp [loadWord, hlo, hhi]

/-- Settles O9: the store of the high byte leaves the low byte, which lies at no image of it. -/
theorem wordStoreThenLoad : Obligations.WordStoreThenLoad := by
  intro a w st ha ha1
  have hram : a.toNat < 0x2000 := Nat.lt_succ_of_le ha
  have hram1 : (a + 1#16).toNat < 0x2000 := Nat.lt_succ_of_le ha1
  set s1 := st.setRam (Memory.set st.ram (a.toNat % 0x800) (lo8 w)) with hs1
  set t := s1.setRam (Memory.set s1.ram ((a + 1#16).toNat % 0x800) (hi8 w)) with ht
  have hstore : storeWord a w st = .ok t := by
    rw [storeWord, busStore_ram hram, except_ok_bind, busStore_ram hram1]
  have hlo : busLoad a t = .ok (lo8 w) := by
    rw [ht, busLoad_setRam_set hram1, if_neg not_sameRamByte_add_one, hs1, busLoad_setRam_set hram,
      if_pos ⟨hram, hram, rfl⟩]
  have hhi : busLoad (a + 1#16) t = .ok (hi8 w) := by
    rw [ht, busLoad_setRam_set hram1, if_pos ⟨hram1, hram1, rfl⟩]
  have hword : loadWord a t = .ok w := by rw [loadWord_ok hlo hhi, wordOf_hi8_lo8]
  exact ⟨t, hstore, hlo, hhi, hword⟩

/-- Settles O10: a fetch is a load, and a load sees the store. -/
theorem fetchSeesStore : Obligations.FetchSeesStore := by
  intro a b v st t hstore himage
  obtain ⟨hram, rfl⟩ := busStore_eq_ok.1 hstore
  refine fetch8_eq_ok.2 ⟨?_, rfl⟩
  exact (busLoad_setRam_set hram b v st).trans (if_pos himage)

/-! ## The PRG window (20_memory.md R53) -/

theorem prgOffset_two (a : Word) : prgOffset .two a = a.toNat - 0x8000 := by simp [prgOffset]

theorem prgOffset_firstUnit {a : Word} (h : a.toNat < 0xC000) (units : PrgUnits) :
    prgOffset units a = a.toNat - 0x8000 :=
  if_neg fun ⟨_, hhigh⟩ => by omega

theorem prgOffset_mirror {a : Word} (h : 0xC000 ≤ a.toNat) : prgOffset .one a = a.toNat - 0xC000 :=
  if_pos ⟨rfl, h⟩

/-- Settles O8: the offset of each address of the window is `k`. -/
theorem nromWindow : Obligations.NromWindow := by
  intro st k
  have low (hk : k < 0x8000) : (BitVec.ofNat 16 (0x8000 + k)).toNat = 0x8000 + k := by
    rw [BitVec.toNat_ofNat]; omega
  have high (hk : k < 0x4000) : (BitVec.ofNat 16 (0xC000 + k)).toNat = 0xC000 + k := by
    rw [BitVec.toNat_ofNat]; omega
  refine ⟨fun hu hk => ⟨?_, ?_⟩, fun hu hk => ?_⟩
  · have ha := low (by omega)
    rw [busLoad_prg (by omega), prgOffset_firstUnit (by omega), ha, Nat.add_sub_cancel_left]
  · have ha := high hk
    rw [busLoad_prg (by omega), hu, prgOffset_mirror (by omega), ha, Nat.add_sub_cancel_left]
  · have ha := low hk
    rw [busLoad_prg (by omega), hu, prgOffset_two, ha, Nat.add_sub_cancel_left]

/-! ## The bytes an instruction stores to (20_memory.md R45, R62; 60_exceptions.md R242) -/

/-- `n` is `m` with one byte written at each listed address, in order, and every listed address lies in RAM or its
mirrors. -/
inductive StoredAt : List Word → Memory → Memory → Prop
  | nil {m : Memory} : StoredAt [] m m
  | cons {b : Word} {l : List Word} {m n : Memory} (hb : Writable b) (v : Byte)
      (h : StoredAt l (Memory.set m (b.toNat % 0x800) v) n) : StoredAt (b :: l) m n

theorem StoredAt.writable {l : List Word} {m n : Memory} (h : StoredAt l m n) : ∀ b ∈ l, Writable b := by
  induction h with
  | nil => exact List.forall_mem_nil _
  | cons hb _ _ ih => exact List.forall_mem_cons.2 ⟨hb, ih⟩

/-- Stores leave every address that is no image of one they go to. -/
theorem StoredAt.busLoad_eq {l : List Word} {m n : Memory} (h : StoredAt l m n) {a : Word}
    (ha : ∀ b ∈ l, ¬ SameRamByte b a) (st : State) : busLoad a (st.setRam n) = busLoad a (st.setRam m) := by
  induction h with
  | nil => rfl
  | @cons b l m n hb v _ ih =>
    obtain ⟨hba, hl⟩ := List.forall_mem_cons.1 ha
    calc busLoad a (st.setRam n)
      _ = busLoad a (st.setRam (Memory.set m (b.toNat % 0x800) v)) := ih hl
      _ = busLoad a (st.setRam m) := (busLoad_setRam_set hb a v (st.setRam m)).trans (if_neg hba)

theorem StoredAt.one {b : Word} (hb : Writable b) (m : Memory) (v : Byte) :
    StoredAt [b] m (Memory.set m (b.toNat % 0x800) v) := .cons hb v .nil

/-- A byte pushed at stack pointer `sp`. -/
theorem StoredAt.push {sp v : Byte} {l : List Word} {m n : Memory}
    (h : StoredAt l (Memory.set m (stackIndex sp) v) n) : StoredAt (stackAddr sp :: l) m n :=
  .cons (stackAddr_writable sp) v (by rwa [stackAddr_mod])

/-- An instruction that reads its operand stores nothing. -/
theorem storedAddrs_of_read {i : Instr} {e : Byte → State → State} (h : readEffect i.mnemonic = some e) (st : State) :
    storedAddrs i st = [] := by
  cases i <;> cases h <;> rfl

/-- A memory form of a storing mnemonic stores at its effective address. -/
theorem storedAddrs_of_mem {i : Instr} {m : MemMode} {ea : Word} {st : State} (hs : storesAtEa i.mnemonic = true)
    (ho : i.operand = .mem m) (he : effAddr m st = .ok ea) : storedAddrs i st = [ea] := by
  unfold storedAddrs
  rw [ho]
  generalize i.mnemonic = k at hs
  cases k <;> cases hs <;> simp [storesAtEa, he, Except.toOption]

theorem storesAtEa_of_storeValue {m : Mnemonic} {g : State → Byte} (h : storeValue m = some g) :
    storesAtEa m = true := by
  cases m <;> cases h <;> rfl

theorem storesAtEa_of_modifyFn {m : Mnemonic} {f : Byte → Byte → Byte × Byte} (h : modifyFn m = some f) :
    storesAtEa m = true := by
  cases m <;> cases h <;> rfl

/-- The accumulator form of a shift stores nothing. -/
theorem storedAddrs_of_acc {i : Instr} (ho : i.operand = .acc) (st : State) : storedAddrs i st = [] := by
  cases i <;> cases ho <;> rfl

theorem storedAddrs_of_branch {i : Instr} {q : Flag × Bool} (h : branchCondition i.mnemonic = some q) (st : State) :
    storedAddrs i st = [] := by
  cases i <;> cases h <;> rfl

/-- Of the instructions without an operand, PHA, PHP and BRK store, each at the slots it pushes to. -/
theorem impliedEffect_storedAt {i : Instr} {e : State → State} (h : impliedEffect i.mnemonic = some e) (st : State) :
    StoredAt (storedAddrs i st) st.ram (e st).ram := by
  cases i <;> cases h
  case pha | php => exact .push .nil
  case brk => exact .push (.push (.push .nil))
  all_goals exact .nil

/-- RAM after an instruction is RAM before it with a byte written at each address it stores to. -/
theorem exec_storedAt {i : Instr} {s t : State} (h : exec i s = .next t) :
    StoredAt (storedAddrs i s) s.ram t.ram := by
  cases exec_shape i with
  | read e he =>
    obtain ⟨_, _, hx⟩ := exec_read he
    obtain ⟨v, _, rfl⟩ := withSource_eq_next.1 (hx s ▸ h)
    rw [storedAddrs_of_read he, readEffect_ram he]
    exact .nil
  | store g hg =>
    obtain ⟨m, ho, hx⟩ := exec_store hg
    obtain ⟨ea, he, hw, rfl⟩ := storeAt_eq_next.1 (hx s ▸ h)
    rw [storedAddrs_of_mem (storesAtEa_of_storeValue hg) ho he]
    exact .one hw _ _
  | modify f hf =>
    obtain ⟨ho, hx⟩ | ⟨m, ho, hx⟩ := exec_modify hf
    · cases (hx s).symm.trans h
      rw [storedAddrs_of_acc ho]
      exact .nil
    · obtain ⟨ea, v, he, hw, _, rfl⟩ := modifyAt_eq_next.1 (hx s ▸ h)
      rw [storedAddrs_of_mem (storesAtEa_of_modifyFn hf) ho he]
      exact .one hw _ _
  | branch q hq =>
    obtain ⟨d, _, hx⟩ := exec_branch hq
    cases (hx s).symm.trans h
    rw [storedAddrs_of_branch hq]
    split <;> exact .nil
  | implied hi =>
    obtain ⟨e, he⟩ := impliedEffect_isSome hi
    cases (exec_implied he s).symm.trans h
    exact impliedEffect_storedAt he s
  | jmpAbs w hw =>
    subst hw; cases h
    exact .nil
  | jmpInd w hw =>
    subst hw
    rw [exec_jmpInd, finish_eq_next, bind_eq_ok] at h
    obtain ⟨ea, _, ht⟩ := h
    cases ht
    exact .nil
  | jsr w hw =>
    subst hw
    cases (exec_jsr w s).symm.trans h
    exact .push (.push .nil)

/-- Settles O51: RAM changes by the listed stores only, and no instruction changes the image. -/
theorem memoryFrame : Obligations.MemoryFrame := by
  intro i s t h
  have hst := exec_storedAt h
  have hparams : t.params = s.params := exec_params h
  refine ⟨fun a ha => ?_, hst.writable⟩
  calc busLoad a t
    _ = busLoad a (s.setRam t.ram) := busLoad_congr (s := t) (t := s.setRam t.ram) rfl hparams a
    _ = busLoad a s := hst.busLoad_eq ha s

/-! ## The construction of the mapper (20_memory.md R52) -/

/-- The entries of an image: rising from its first index, inside its length, none that an unlisted index would read. -/
theorem imageFrom_entry {i : Nat} {bs : List Byte} :
    ∀ c ∈ imageFrom i bs, i ≤ c.1 ∧ c.1 < i + bs.length ∧ c.2 ≠ Memory.unlisted := by
  induction bs generalizing i with
  | nil => exact List.forall_mem_nil _
  | cons b bs ih =>
    have tail : ∀ c ∈ imageFrom (i + 1) bs, i ≤ c.1 ∧ c.1 < i + (b :: bs).length ∧ c.2 ≠ Memory.unlisted := by
      intro c hc
      obtain ⟨hlo, hhi, hne⟩ := ih c hc
      rw [List.length_cons]
      exact ⟨by omega, by omega, hne⟩
    rw [imageFrom]
    split
    · exact tail
    · next hb => exact List.forall_mem_cons.2 ⟨⟨le_rfl, by simp, hb⟩, tail⟩

theorem imageFrom_pairwise (i : Nat) (bs : List Byte) : (imageFrom i bs).Pairwise fun c d => c.1 < d.1 := by
  induction bs generalizing i with
  | nil => exact List.Pairwise.nil
  | cons b bs ih =>
    rw [imageFrom]
    split
    · exact ih (i + 1)
    · exact List.pairwise_cons.2 ⟨fun c hc => (imageFrom_entry c hc).1, ih (i + 1)⟩

theorem imageFrom_wf (i : Nat) (bs : List Byte) : Memory.wf (imageFrom i bs) := by
  refine ⟨imageFrom_pairwise i bs, fun c hc => ?_⟩
  obtain ⟨_, _, hne⟩ := imageFrom_entry c hc
  exact hne

/-- An index below every listed one is unlisted. -/
theorem Memory.get_of_forall_lt {m : Memory} {i : Nat} (h : ∀ c ∈ m, i < c.1) : Memory.get m i = Memory.unlisted := by
  simpa using Memory.get_append_of_forall_ne m [] i fun c hc => (h c hc).ne'

/-- An image reads back byte for byte. -/
theorem get_imageFrom {bs : List Byte} {k : Nat} (hk : k < bs.length) (i : Nat) :
    bs[k]? = some (Memory.get (imageFrom i bs) (i + k)) := by
  induction bs generalizing i k with
  | nil => exact absurd hk (Nat.not_lt_zero k)
  | cons b bs ih =>
    rw [imageFrom]
    cases k with
    | zero =>
      have hbelow : Memory.get (imageFrom (i + 1) bs) i = Memory.unlisted :=
        Memory.get_of_forall_lt fun c hc => (imageFrom_entry c hc).1
      simp only [Nat.add_zero, List.getElem?_cons_zero]
      split
      · next hb => rw [hbelow, hb]
      · rw [Memory.get_cons, if_pos rfl]
    | succ k =>
      have hidx : i + 1 + k = i + (k + 1) := by omega
      rw [List.getElem?_cons_succ, ih (Nat.lt_of_succ_lt_succ hk) (i + 1), hidx]
      split
      · rfl
      · rw [Memory.get_cons, if_neg (by simp)]

/-- Settles O58: the two checks in their order, then the image of the declared bytes. -/
theorem mapperConstruction : Obligations.MapperConstruction := by
  intro units prg chrUnits chrLength q
  refine ⟨fun h => if_pos h, fun h h2 => (if_neg h.not_gt).trans (if_pos h2), fun h h2 => ?_⟩
  have hlen : (prg.take (units.count * 16384)).length = units.count * 16384 := List.length_take_of_le h
  refine ⟨_, (if_neg h.not_gt).trans (if_neg h2.not_gt), rfl, rfl, fun k hk => ?_, imageFrom_wf 0 _, fun c hc => ?_⟩
  · have hget := get_imageFrom (hk.trans_eq hlen.symm) 0
    rwa [List.getElem?_take_of_lt hk, Nat.zero_add] at hget
  · obtain ⟨_, hlt, _⟩ := imageFrom_entry c hc
    rwa [Nat.zero_add, hlen] at hlt

end Sys2Proof.Machine
end

section
/-! SUPPORT. The family of 30_encoding.md: decoding and encoding are inverse to each other, which bytes decode, and how
long an encoding is. -/

namespace Sys2Proof

/-! ## Decoding and encoding -/

/-- What decodes is an opcode byte with an entry, and the operand bytes that complete it (30_encoding.md R80, R83). -/
theorem decode_eq_ok {bs rest : List Byte} {i : Instr} :
    decode bs = .ok (i, rest) ↔
      ∃ op e ops, opcodeEntry op = some e ∧ e.follow ops = some i ∧ bs = op :: ops ++ rest := by
  constructor
  · intro h
    unfold decode at h
    split at h
    · cases h
    · next op tail =>
      split at h <;> cases h
      · next he => exact ⟨op, _, [], he, rfl, rfl⟩
      · next f b he => exact ⟨op, .byte f, [b], he, rfl, rfl⟩
      · next f lo hi he => exact ⟨op, .word f, [lo, hi], he, rfl, rfl⟩
  · rintro ⟨op, e, ops, he, hf, rfl⟩
    unfold Entry.follow at hf
    split at hf <;> cases hf <;> simp [decode, he]

/-- An opcode byte and the operand bytes that complete its entry are the encoding of the instruction they make. -/
theorem encode_of_follow {op : Byte} {e : Entry} {ops : List Byte} {i : Instr} (he : opcodeEntry op = some e)
    (hf : e.follow ops = some i) : encode i = op :: ops := by
  have hs := opcodeEntry_sound op e he
  unfold Entry.follow at hf
  split at hf <;> cases hf
  · obtain ⟨hop, hbytes⟩ := hs
    rw [encode, hop, hbytes]
  · obtain ⟨hop, hbytes⟩ := hs _
    rw [encode, hop, hbytes]
  · obtain ⟨hop, hbytes⟩ := hs _
    rw [encode, hop, hbytes, lo8_wordOf, hi8_wordOf]

/-- Settles O1: the entry of an instruction's opcode byte is completed by its operand bytes. -/
theorem decodeEncodeRoundTrip : Obligations.DecodeEncodeRoundTrip := by
  intro i rest
  obtain ⟨e, he, hf⟩ := Option.bind_eq_some_iff.1 (opcodeEntry_opcode i)
  exact decode_eq_ok.2 ⟨opcode i, e, i.operand.bytes, he, hf, rfl⟩

/-- Settles O2: the bytes that were decoded are an opcode byte and the operand bytes that complete its entry. -/
theorem decodedBytesAreTheEncoding : Obligations.DecodedBytesAreTheEncoding := by
  intro bs i rest h
  obtain ⟨op, e, ops, he, hf, rfl⟩ := decode_eq_ok.1 h
  rw [encode_of_follow he hf]

/-- Settles O4: each word is the encoding of its instruction. -/
theorem sampleWordsDecode : Obligations.SampleWordsDecode :=
  have word (i : Instr) : decode (encode i ++ []) = .ok (i, []) := decodeEncodeRoundTrip i []
  ⟨word (.ldaImm 0x10#8), word (.ldaZp 0x10#8), word (.ldaZpx 0xFF#8), word (.ldxZpy 0x10#8), word (.ldaAbx 0x1234#16),
    word (.ldaAby 0x1234#16), word (.staIzx 0x20#8), word (.sbcIzy 0x30#8), word (.bitAbs 0x0300#16), word .aslAcc,
    word (.bne 0xF9#8), word (.jmpInd 0x02FF#16), word .brk⟩

/-! ## The length of an encoding -/

theorem Format.operandBytes_le_two (fmt : Format) : fmt.operandBytes ≤ 2 := by
  cases fmt <;> decide

theorem length_encode (i : Instr) : (encode i).length = 1 + i.operand.format.operandBytes := by
  rw [encode, List.length_cons, length_bytes, Nat.add_comm]

/-- `Instr` has no constructor for a blank cell of 30_encoding.md R87. -/
theorem Instr.wf_eq_true (i : Instr) : i.wf = true := by
  cases i <;> rfl

/-- Settles O5: by the operand bytes of the format, two at most. -/
theorem encodedLengths : Obligations.EncodedLengths := by
  intro i
  have hlen := length_encode i
  have htwo := i.operand.format.operandBytes_le_two
  exact ⟨hlen, by omega, i.wf_eq_true⟩

/-! ## The unsupported bytes -/

theorem decodeByte_eq_none {op : Byte} : decodeByte op = none ↔ opcodeEntry op = none := Option.map_eq_none_iff

namespace Machine

/-- A step of a running machine executes the byte at `pc`, with `pc` past it (40_engine_addressing.md R125). -/
theorem step_of_busLoad {st : State} {op : Byte} (hrun : st.status = .running) (hload : busLoad st.pc st = .ok op) :
    step st = executeOpcode op (st.setPc (st.pc + 1#16)) := by
  have hf : fetch8 st = .ok (op, st.setPc (st.pc + 1#16)) := fetch8_eq_ok.2 ⟨hload, rfl⟩
  simp only [step, hrun, fetchAndExecute, hf]

theorem executeOpcode_of_decodeByte_none {op : Byte} (h : decodeByte op = none) (st : State) :
    executeOpcode op st = .fault (.unsupportedOpcode op (st.pc - 1#16)) := by
  simp only [executeOpcode, decodeByte_eq_none.1 h]

/-- Settles O3: the list is read off the opcode map byte by byte, and the fetch leaves `pc` one past the byte. -/
theorem unsupportedBytesFault : Obligations.UnsupportedBytesFault := by
  refine ⟨by decide, fun st op hrun hload hnone => ?_⟩
  rw [step_of_busLoad hrun hload, executeOpcode_of_decodeByte_none hnone, State.setPc_pc, BitVec.add_sub_cancel]

end Machine

end Sys2Proof
end

section
/-! SUPPORT. The family of 40_engine_addressing.md: the stack primitives, the effective addresses and the operand value,
a step as fetch, decode and meaning, and runs as chains of completed steps. -/

namespace Sys2Proof.Machine

/-! ## The stack (40_engine_addressing.md R120 to R123) -/

/-- Settles O12: by the closed forms; the slot that was pushed to is the one that is pulled. -/
theorem stackPrimitives : Obligations.StackPrimitives := by
  intro v st
  refine ⟨push8_eq v st, pull8_eq st, _, push8_eq v st, ?_⟩
  simp only [pull8_eq, State.setS_s, State.setS_ram, State.setRam_ram, BitVec.sub_add_cancel, Memory.get_set, if_true]
  rfl

/-- The two slots a word is pushed to are different bytes. -/
theorem stackIndex_sub_one_ne (sp : Byte) : stackIndex (sp - 1#8) ≠ stackIndex sp := by
  rw [Ne, stackIndex_inj]
  bv_omega

/-- A read of RAM after a word was pushed. -/
theorem get_of_push16 {w : Word} {st t : State} (h : push16 w st = .ok t) (k : Nat) :
    Memory.get t.ram k =
      if stackIndex (st.s - 1#8) = k then lo8 w else if stackIndex st.s = k then hi8 w else Memory.get st.ram k := by
  cases (push16_eq w st).symm.trans h
  simp only [State.setS_ram, State.setRam_ram, Memory.get_set]

/-- Settles O13: by the closed forms; the two slots differ, and both pulls find what was pushed. -/
theorem wordPushThenPull : Obligations.WordPushThenPull := by
  intro w st
  have hpush := push16_eq w st
  have hget := get_of_push16 hpush
  have hne := stackIndex_sub_one_ne st.s
  have hhigh := (hget (stackIndex st.s)).trans ((if_neg hne).trans (if_pos rfl))
  have hlow := (hget (stackIndex (st.s - 1#8))).trans (if_pos rfl)
  refine ⟨_, hpush, rfl, hhigh, hlow, fun k hk hk1 => ?_, ?_, pull16_eq st⟩
  · exact (hget k).trans ((if_neg hk1.symm).trans (if_neg hk.symm))
  · have hslot : st.s - 2#8 + 1#8 = st.s - 1#8 := by bv_omega
    rw [pull16_eq, State.setS_s, BitVec.sub_add_cancel, hslot, hhigh, hlow, wordOf_hi8_lo8]
    rfl

/-! ## Effective addresses and the operand value (40_engine_addressing.md R104 to R119) -/

/-- Extending the sum of two bytes is taking it modulo 256 as a number (00_scope.md R9). -/
theorem zext16_add (a b : Byte) : zext16 (a + b) = BitVec.ofNat 16 ((a.toNat + b.toNat) % 256) := by
  apply BitVec.eq_of_toNat_eq
  simp only [toNat_zext16, BitVec.toNat_add, BitVec.toNat_ofNat]
  omega

/-- Adding an extended byte to a word is adding the two numbers modulo 65536 (00_scope.md R9). -/
theorem add_zext16 (w : Word) (b : Byte) : w + zext16 b = BitVec.ofNat 16 (w.toNat + b.toNat) := by
  apply BitVec.eq_of_toNat_eq
  simp only [BitVec.toNat_add, toNat_zext16, BitVec.toNat_ofNat]

theorem zext16_eq_ofNat (b : Byte) : zext16 b = BitVec.ofNat 16 b.toNat := (BitVec.ofNat_toNat 16 b).symm

/-- Settles O14: each address is a byte, a word, a sum of bytes, or a sum of a word and a byte. -/
theorem directEffectiveAddresses : Obligations.DirectEffectiveAddresses := by
  intro z w st
  refine ⟨?_, ?_, ?_, rfl, ?_, ?_⟩
  · rw [effAddr, zext16_eq_ofNat]
  · rw [effAddr, zext16_add]
  · rw [effAddr, zext16_add]
  · rw [effAddr, add_zext16]
  · rw [effAddr, add_zext16]

/-- A pointer read is the two loads, and both succeed (40_engine_addressing.md R113). -/
theorem zpPtrRead_loads (p : Byte) (st : State) :
    ∃ lo hi, busLoad (zext16 p) st = .ok lo ∧ busLoad (zpPtrHighAddr st.params.zpPtrWrap p) st = .ok hi ∧
      zpPtrRead p st = .ok (wordOf hi lo) := by
  obtain ⟨lo, hlo, h⟩ := bind_eq_ok.1 (zpPtrRead_eq p st)
  obtain ⟨hi, hhi, hw⟩ := bind_eq_ok.1 h
  exact ⟨lo, hi, hlo, hhi, (zpPtrRead_eq p st).trans hw.symm⟩

/-- Away from 0xFF the open parameter is not read (40_engine_addressing.md R113). -/
theorem zpPtrHighAddr_of_ne {p : Byte} (h : p ≠ 0xFF#8) (q : ZpPtrWrap) : zpPtrHighAddr q p = zext16 (p + 1#8) :=
  if_neg h

/-- Settles O15: the place of the high byte under each setting. -/
theorem zeroPagePointerRead : Obligations.ZeroPagePointerRead := by
  intro p st
  refine ⟨fun hq => ?_, fun hq => ?_, fun hp q => ?_⟩
  · rw [← zpPtrHighAddr_wrap, ← hq]
    exact zpPtrRead_loads p st
  · rw [← zpPtrHighAddr_nowrap, ← hq]
    exact zpPtrRead_loads p st
  · simp only [zpPtrRead_eq, zpPtrHighAddr_of_ne hp]

/-- Settles O16: the pointer always reads, and Y is added to its value. -/
theorem indirectEffectiveAddresses : Obligations.IndirectEffectiveAddresses := by
  intro z st
  refine ⟨⟨_, zpPtrRead_eq _ st, zpPtrRead_eq _ st⟩, _, zpPtrRead_eq z st, ?_⟩
  rw [effAddr, zpPtrRead_eq, except_ok_bind, except_pure, add_zext16]

/-- Settles O59: a memory operand resolves, and its value is the load there. -/
theorem operandValue : Obligations.OperandValue := by
  refine fun st => ⟨fun _ => rfl, fun m => ?_⟩
  obtain ⟨ea, he⟩ := effAddr_ok m st
  exact ⟨ea, he, by rw [readSource, he, except_ok_bind]⟩

/-! ## A step is fetch, decode and meaning (40_engine_addressing.md R100, R124, R125) -/

/-- Settles O45: the opcode fetch is the load at `pc`. -/
theorem stepIsFetchThenExecute : Obligations.StepIsFetchThenExecute := fun _ _ => step_of_busLoad

/-- Loading a nonempty list of bytes is loading its head and then its tail one address on. -/
theorem loadBytes_cons {a : Word} {b : Byte} {bs : List Byte} {st : State} :
    loadBytes a (b :: bs).length st = .ok (b :: bs) ↔
      busLoad a st = .ok b ∧ loadBytes (a + 1#16) bs.length st = .ok bs := by
  simp only [List.length_cons, loadBytes, bind_eq_ok, except_pure, Except.ok.injEq, List.cons.injEq]
  constructor
  · rintro ⟨c, hb, cs, hbs, rfl, rfl⟩
    exact ⟨hb, hbs⟩
  · rintro ⟨hb, hbs⟩
    exact ⟨b, hb, bs, hbs, rfl, rfl⟩

/-- Loading bytes does not see `pc`. -/
@[simp] theorem loadBytes_setPc (a : Word) (n : Nat) (st : State) (w : Word) :
    loadBytes a n (st.setPc w) = loadBytes a n st := by
  induction n generalizing a with
  | zero => rfl
  | succ n ih => simp only [loadBytes, busLoad_setPc, ih]

/-- Where the bytes at `pc` complete an entry, fetching its operand makes the instruction and moves `pc` past them. -/
theorem fetchOperand_of_follow {e : Entry} {ops : List Byte} {i : Instr} {st : State} (hf : e.follow ops = some i)
    (hload : loadBytes st.pc ops.length st = .ok ops) :
    fetchOperand e st = .ok (i, st.setPc (st.pc + BitVec.ofNat 16 ops.length)) := by
  unfold Entry.follow at hf
  split at hf <;> cases hf
  · simp only [fetchOperand, List.length_nil, BitVec.add_zero]
    rfl
  · next f b =>
    obtain ⟨hb, _⟩ := loadBytes_cons.1 hload
    have hfetch : fetch8 st = .ok (b, st.setPc (st.pc + 1#16)) := fetch8_eq_ok.2 ⟨hb, rfl⟩
    simp only [fetchOperand, hfetch]
    rfl
  · next f lo hi =>
    obtain ⟨hlo, htail⟩ := loadBytes_cons.1 hload
    obtain ⟨hhi, _⟩ := loadBytes_cons.1 htail
    have hfetch : fetch16 st = .ok (wordOf hi lo, st.setPc (st.pc + 2#16)) :=
      fetch16_eq_ok.2 ⟨lo, hi, hlo, hhi, rfl, rfl⟩
    simp only [fetchOperand, hfetch]
    rfl

/-- Settles O43: the first byte selects the entry, and the bytes after it are the operand that is fetched. -/
theorem stepRunsDecoded : Obligations.StepRunsDecoded := by
  intro st bs i hrun hload hdec
  obtain ⟨op, e, ops, he, hf, rfl⟩ := decode_eq_ok.1 hdec
  rw [List.append_nil] at hload ⊢
  obtain ⟨hop, hops⟩ := loadBytes_cons.1 hload
  have hpc : st.pc + 1#16 + BitVec.ofNat 16 ops.length = st.pc + BitVec.ofNat 16 (op :: ops).length := by
    rw [BitVec.add_assoc, List.length_cons, Nat.add_comm, BitVec.ofNat_add]
  have hfetch := fetchOperand_of_follow (st := st.setPc (st.pc + 1#16)) hf ((loadBytes_setPc ..).trans hops)
  rw [State.setPc_pc, hpc] at hfetch
  rw [step_of_busLoad hrun hop]
  simp only [executeOpcode, he, hfetch]
  rfl

/-! ## No meaning is refused -/

theorem finish_ne_refused (r : Except Fault State) (w : Refusal) : finish r ≠ .refused w := by
  cases r <;> simp

theorem withSource_ne_refused (src : Source) (e : Byte → State → State) (st : State) (w : Refusal) :
    withSource src e st ≠ .refused w := by
  unfold withSource
  split <;> simp

/-- Each shape of instruction completes or faults. -/
theorem exec_ne_refused (i : Instr) (st : State) (w : Refusal) : exec i st ≠ .refused w := by
  cases exec_shape i with
  | read e he =>
    obtain ⟨src, _, hx⟩ := exec_read he
    exact hx st ▸ withSource_ne_refused src e st w
  | store g hg =>
    obtain ⟨m, _, hx⟩ := exec_store hg
    exact hx st ▸ finish_ne_refused _ w
  | modify f hf =>
    obtain ⟨_, hx⟩ | ⟨m, _, hx⟩ := exec_modify hf
    · simp [hx, modifyA]
    · exact hx st ▸ finish_ne_refused _ w
  | branch q hq =>
    obtain ⟨d, _, hx⟩ := exec_branch hq
    simp [hx, branchOn]
  | implied hi =>
    obtain ⟨e, he⟩ := impliedEffect_isSome hi
    simp [exec_implied he]
  | jmpAbs a ha => subst ha; simp [exec, execJmpAbs]
  | jmpInd a ha => subst ha; exact exec_jmpInd a st ▸ finish_ne_refused _ w
  | jsr a ha => subst ha; simp [exec_jsr]

theorem executeOpcode_ne_refused (op : Byte) (st : State) (w : Refusal) : executeOpcode op st ≠ .refused w := by
  unfold executeOpcode
  split
  · simp
  · split
    · exact exec_ne_refused _ _ w
    · simp

/-- A step completes or faults. -/
theorem step_ne_refused (st : State) (w : Refusal) : step st ≠ .refused w := by
  unfold step fetchAndExecute
  split
  · split
    · exact executeOpcode_ne_refused _ _ w
    · simp
  · simp

/-! ## Runs (40_engine_addressing.md R100; 70_reset_and_hazards.md R264) -/

/-- A run's last tick comes after a run that is one shorter. -/
theorem run_succ (n : Nat) (st : State) : run (n + 1) st = tick (run n st) := by
  induction n generalizing st with
  | zero => rfl
  | succ n ih => exact ih (tick st)

/-- Everything a tick can do: complete a step, or leave a faulted machine with its parameters. -/
theorem tick_cases (st : State) :
    step st = .next (tick st) ∨ ∃ f, (tick st).status = .faulted f ∧ (tick st).params = st.params := by
  cases hst : st.status with
  | faulted f =>
    rw [tick_faulted hst]
    exact .inr ⟨f, hst, rfl⟩
  | running =>
    cases hs : step st with
    | next t => exact .inl (by simp only [tick, hst, hs])
    | fault f =>
      rw [tick_fault hst hs]
      exact .inr ⟨f, rfl, rfl⟩
    | refused w => exact absurd hs (step_ne_refused st w)

theorem tick_params (st : State) : (tick st).params = st.params := by
  obtain hs | ⟨_, _, hparams⟩ := tick_cases st
  · obtain ⟨hparams, _⟩ := stepKeepsParameters st _ hs
    exact hparams
  · exact hparams

/-- A tick that leaves the machine running is a completed step. -/
theorem step_of_tick_running {st : State} (h : (tick st).status = .running) : step st = .next (tick st) := by
  obtain hs | ⟨_, hf, _⟩ := tick_cases st
  · exact hs
  · cases h.symm.trans hf

theorem run_params (n : Nat) (st : State) : (run n st).params = st.params := by
  induction n generalizing st with
  | zero => rfl
  | succ n ih => exact (ih (tick st)).trans (tick_params st)

/-- Settles O57: the last tick left the machine running, so it was a step that completed, from a running machine. -/
theorem safeRunIsCompletedSteps : Obligations.SafeRunIsCompletedSteps := by
  intro n st h
  have hlast := run_succ n st
  rw [SafeFor, hlast] at h
  have hstep := step_of_tick_running h
  obtain ⟨hrun, _⟩ := step_eq_next hstep
  exact ⟨hrun, hlast ▸ hstep, run_params (n + 1) st⟩

end Sys2Proof.Machine
end

section
/-! SUPPORT. The family of 41_load_store_transfer.md: the outcome of an instruction that reads its operand and of one that
stores a byte, and the forms and results of the loads, the stores and the register transfers. -/

namespace Sys2Proof.Machine

/-! ## Loads (41_load_store_transfer.md R140 to R142) -/

/-- An instruction that reads its operand has its effect where the read succeeds, and the read's fault where it does not
(40_engine_addressing.md R119). -/
theorem exec_read_outcome {i : Instr} {e : Byte → State → State} (h : readEffect i.mnemonic = some e) (st : State) :
    ∃ src : Source, i.operand = src.operand ∧
      (∀ v, readSource src st = .ok v → exec i st = .next (e v st)) ∧
      ∀ f, readSource src st = .error f → exec i st = .fault f := by
  obtain ⟨src, ho, hx⟩ := exec_read h
  exact ⟨src, ho, fun v hv => (hx st).trans (withSource_ok hv e), fun f hf => (hx st).trans (withSource_error hf e)⟩

theorem readEffect_isSome_of_load {m : Mnemonic} (h : m ∈ [.lda, .ldx, .ldy]) : ∃ e, readEffect m = some e :=
  Option.isSome_iff_exists.1 ((by decide : ∀ k ∈ [.lda, .ldx, .ldy], (readEffect k).isSome = true) m h)

/-- Settles O17: a load reads its operand, and its effect is the row of its mnemonic. -/
theorem loadsResult : Obligations.LoadsResult := by
  refine ⟨hasForms_of_formsOk (by decide) (by decide), hasForms_of_formsOk (by decide) (by decide),
    hasForms_of_formsOk (by decide) (by decide), fun i st hi => ?_⟩
  obtain ⟨e, he⟩ := readEffect_isSome_of_load hi
  obtain ⟨src, ho, hok, herr⟩ := exec_read_outcome he st
  refine ⟨src, ho, fun v hv => ⟨fun hm => ?_, fun hm => ?_, fun hm => ?_⟩, herr⟩
  all_goals
    cases he.symm.trans (congrArg readEffect hm)
    exact hok v hv

/-! ## Stores (41_load_store_transfer.md R143 to R145) -/

/-- A store instruction ends as the store of its register at its effective address does. -/
theorem exec_store_outcome {i : Instr} {g : State → Byte} (h : storeValue i.mnemonic = some g) (st : State) :
    ∃ m ea, i.operand = .mem m ∧ effAddr m st = .ok ea ∧ exec i st = finish (busStore ea (g st) st) := by
  obtain ⟨m, ho, hx⟩ := exec_store h
  obtain ⟨ea, he⟩ := effAddr_ok m st
  exact ⟨m, ea, ho, he, by rw [hx, storeAt, he, except_ok_bind]⟩

theorem storeValue_isSome_of_store {m : Mnemonic} (h : m ∈ [.sta, .stx, .sty]) : ∃ g, storeValue m = some g :=
  Option.isSome_iff_exists.1 ((by decide : ∀ k ∈ [.sta, .stx, .sty], (storeValue k).isSome = true) m h)

/-- Settles O18: the register of the mnemonic is stored at the effective address, and each range answers the store. -/
theorem storesResult : Obligations.StoresResult := by
  refine ⟨hasForms_of_formsOk (by decide) (by decide), hasForms_of_formsOk (by decide) (by decide),
    hasForms_of_formsOk (by decide) (by decide), fun i st hi => ?_⟩
  obtain ⟨g, hg⟩ := storeValue_isSome_of_store hi
  obtain ⟨m, ea, ho, he, hx⟩ := exec_store_outcome hg st
  have faults {f : Fault} (h : busStore ea (g st) st = .error f) : exec i st = .fault f :=
    hx.trans (finish_eq_fault.2 h)
  refine ⟨m, ea, ho, he, fun h => ?_, fun h h2 => ?_, fun h h2 => ?_, fun h h2 => ?_, fun h => ?_⟩
  · have hstored := hx.trans (finish_eq_next.2 (busStore_ram (Nat.lt_succ_of_le h) (g st) st))
    refine ⟨fun hm => ?_, fun hm => ?_, fun hm => ?_⟩
    all_goals
      cases hg.symm.trans (congrArg storeValue hm)
      exact hstored
  · exact faults (busStore_unimplemented (busTarget_ppu h h2) _ st)
  · exact faults (busStore_unimplemented (busTarget_apuIo h h2) _ st)
  · exact faults (busStore_mapperRange h (Nat.lt_succ_of_le h2) _ st)
  · exact faults (busStore_prg h _ st)

/-! ## Register transfers (41_load_store_transfer.md R146 to R151) -/

/-- Settles O19: each transfer is an instruction without an operand, with its row in the table of those. -/
theorem transfersResult : Obligations.TransfersResult := by
  refine ⟨?_, ?_, ?_, ?_, ?_, ?_, fun st => ⟨exec_implied (i := .tax) rfl st, exec_implied (i := .tay) rfl st,
    exec_implied (i := .txa) rfl st, exec_implied (i := .tya) rfl st, exec_implied (i := .tsx) rfl st,
    exec_implied (i := .txs) rfl st⟩⟩
  all_goals exact hasForms_of_formsOk (by decide) (by decide)

end Sys2Proof.Machine
end

section
/-! SUPPORT. The family of 42_arithmetic_compare.md: ADC and SBC as numbers and as signed numbers, the compares, and the
increments and decrements of registers and of memory. -/

namespace Sys2Proof.Machine

/-! ## ADC (42_arithmetic_compare.md R160) -/

/-- What ADC does to `P`: C, V, Z and N are written and I, D, B and bit 5 are kept. -/
theorem addWithCarry_flagsWritten (a m p : Byte) :
    FlagsWritten p (addWithCarry a m p).2 [(.c, decide (0xFF < addSum a m (getFlag .c p))),
      (.v, addOverflow a m (addWithCarry a m p).1), (.z, (addWithCarry a m p).1 == 0x00#8),
      (.n, (addWithCarry a m p).1.getLsbD 7)] := by
  intro f
  rw [getFlag_addWithCarry]
  cases f <;> rfl

theorem toNat_addWithCarry (a m p : Byte) :
    (addWithCarry a m p).1.toNat = addSum a m (getFlag .c p) % 256 := BitVec.toNat_ofNat _ _

/-- Settles O20: ADC reads its operand, and its result and flags are those of `addWithCarry`. -/
theorem adcResult : Obligations.AdcResult := by
  refine ⟨hasForms_of_formsOk (by decide) (by decide), fun i st hi => ?_⟩
  obtain ⟨src, ho, hok, herr⟩ := exec_read_outcome (congrArg readEffect hi) st
  refine ⟨src, ho, fun m hm => ⟨_, _, hok m hm, ?_, ?_⟩, herr⟩
  · exact toNat_addWithCarry st.a m st.p
  · exact addWithCarry_flagsWritten st.a m st.p

/-! ## SBC (42_arithmetic_compare.md R161) -/

/-- The operand's one's complement. -/
theorem xor_ones (m : Byte) : m ^^^ 0xFF#8 = ~~~m := BitVec.xor_allOnes

/-- Adding the one's complement with the carry is subtracting with the borrow, 256 up. -/
theorem addSum_complement (a m : Byte) (c : Bool) :
    addSum a (m ^^^ 0xFF#8) c + m.toNat + (1 - c.toNat) = a.toNat + 256 := by
  have hm := m.isLt
  have hc := c.toNat_le
  rw [addSum, xor_ones, BitVec.toNat_not]
  omega

/-- The overflow bit of SBC on the operand itself. -/
theorem addOverflow_complement (a m r : Byte) :
    addOverflow a (m ^^^ 0xFF#8) r = ((a ^^^ m) &&& (a ^^^ r)).getLsbD 7 := by
  rw [addOverflow, xor_ones]
  simp only [BitVec.getLsbD_and, BitVec.getLsbD_xor, BitVec.getLsbD_not]
  cases a.getLsbD 7 <;> cases m.getLsbD 7 <;> cases r.getLsbD 7 <;> rfl

theorem toNat_subWithCarry (a m p : Byte) :
    ((subWithCarry a m p).1.toNat : Int) = ((a.toNat : Int) - m.toNat - (1 - (getFlag .c p).toNat)) % 256 := by
  have hsum := addSum_complement a m (getFlag .c p)
  have hc := (getFlag .c p).toNat_le
  rw [subWithCarry, toNat_addWithCarry]
  omega

/-- The carry of SBC is set exactly when nothing is borrowed. -/
theorem carry_complement (a m : Byte) (c : Bool) :
    decide (0xFF < addSum a (m ^^^ 0xFF#8) c) = decide (m.toNat + (1 - c.toNat) ≤ a.toNat) := by
  have hsum := addSum_complement a m c
  rw [decide_eq_decide]
  omega

/-- What SBC does to `P`, on the operand itself. -/
theorem subWithCarry_flagsWritten (a m p : Byte) :
    FlagsWritten p (subWithCarry a m p).2 [(.c, decide (m.toNat + (1 - (getFlag .c p).toNat) ≤ a.toNat)),
      (.v, ((a ^^^ m) &&& (a ^^^ (subWithCarry a m p).1)).getLsbD 7), (.z, (subWithCarry a m p).1 == 0x00#8),
      (.n, (subWithCarry a m p).1.getLsbD 7)] := by
  rw [← carry_complement, ← addOverflow_complement]
  exact addWithCarry_flagsWritten a (m ^^^ 0xFF#8) p

/-- Settles O21: SBC is ADC of the one's complement, which adds up to the subtraction. -/
theorem sbcResult : Obligations.SbcResult := by
  refine ⟨hasForms_of_formsOk (by decide) (by decide), fun i st hi => ?_⟩
  obtain ⟨src, ho, hok, herr⟩ := exec_read_outcome (congrArg readEffect hi) st
  refine ⟨src, ho, fun m hm => ⟨_, _, hok m hm, ?_, ?_⟩, herr⟩
  · exact toNat_subWithCarry st.a m st.p
  · exact subWithCarry_flagsWritten st.a m st.p

/-! ## Signed overflow (42_arithmetic_compare.md R160, R161, R171) -/

/-- Bit 7 of a byte is the sign of its two's complement. -/
theorem getLsbD_seven_eq_sign (b : Byte) : b.getLsbD 7 = decide (b.toInt < 0) :=
  (BitVec.msb_eq_getLsbD_last b).symm.trans BitVec.msb_eq_toInt

/-- The two readings of a byte agree modulo 256. -/
theorem toInt_emod_eq_toNat (b : Byte) : b.toInt % 256 = b.toNat := by
  have hb := b.isLt
  rw [BitVec.toInt_eq_toNat_cond]
  split <;> omega

/-- Read as two's complement, the result of ADC is the signed sum modulo 256. -/
theorem toInt_addWithCarry_emod (a m p : Byte) :
    (addWithCarry a m p).1.toInt % 256 = (a.toInt + m.toInt + (getFlag .c p).toNat) % 256 := by
  have ha := toInt_emod_eq_toNat a
  have hm := toInt_emod_eq_toNat m
  rw [toInt_emod_eq_toNat, toNat_addWithCarry, addSum]
  omega

/-- The overflow bit says that the result has the sign of neither operand. -/
theorem addOverflow_iff {a m r : Byte} :
    addOverflow a m r = true ↔ ¬(a.toInt < 0 ↔ r.toInt < 0) ∧ ¬(m.toInt < 0 ↔ r.toInt < 0) := by
  rw [addOverflow, BitVec.getLsbD_and, BitVec.getLsbD_xor, BitVec.getLsbD_xor]
  simp only [getLsbD_seven_eq_sign, Bool.and_eq_true, bne_iff_ne, ne_eq, decide_eq_decide]

/-- The overflow bit of ADC is set exactly when the signed sum does not fit in a byte. -/
theorem getOverflow_addWithCarry (a m p : Byte) :
    getFlag .v (addWithCarry a m p).2 = decide (a.toInt + m.toInt + (getFlag .c p).toNat < -128 ∨
      127 < a.toInt + m.toInt + (getFlag .c p).toNat) := by
  have hmod := toInt_addWithCarry_emod a m p
  have hc := (getFlag .c p).toNat_le
  have ha := a.toInt_lt
  have ha' := a.le_toInt
  have hm := m.toInt_lt
  have hm' := m.le_toInt
  have hr := (addWithCarry a m p).1.toInt_lt
  have hr' := (addWithCarry a m p).1.le_toInt
  rw [getFlag_addWithCarry, Bool.eq_iff_iff, addOverflow_iff, decide_eq_true_eq]
  omega

theorem toInt_complement (m : Byte) : (m ^^^ 0xFF#8).toInt = -m.toInt - 1 := by
  have hm := m.isLt
  rw [xor_ones, BitVec.toInt_eq_toNat_cond, BitVec.toInt_eq_toNat_cond, BitVec.toNat_not]
  split <;> split <;> omega

/-- The overflow bit of SBC is set exactly when the signed difference does not fit in a byte. -/
theorem getOverflow_subWithCarry (a m p : Byte) :
    getFlag .v (subWithCarry a m p).2 = decide (a.toInt - m.toInt - (1 - (getFlag .c p).toNat) < -128 ∨
      127 < a.toInt - m.toInt - (1 - (getFlag .c p).toNat)) := by
  rw [subWithCarry, getOverflow_addWithCarry, toInt_complement, decide_eq_decide]
  omega

theorem source_operand_injective {s t : Source} (h : s.operand = t.operand) : s = t := by
  cases s <;> cases t <;> cases h <;> rfl

/-- A reading instruction that completes has had its effect with the value of its operand. -/
theorem exec_read_next {i : Instr} {e : Byte → State → State} {src : Source} {st t : State} {v : Byte}
    (h : readEffect i.mnemonic = some e) (ho : i.operand = src.operand) (hv : readSource src st = .ok v)
    (hx : exec i st = .next t) : t = e v st := by
  obtain ⟨src', ho', hok, _⟩ := exec_read_outcome h st
  obtain rfl := source_operand_injective (ho.symm.trans ho')
  cases hx.symm.trans (hok v hv)
  rfl

/-- Settles O22: the overflow bit is the signed overflow, for SBC of the sum with the complement. -/
theorem overflowIsSigned : Obligations.OverflowIsSigned := by
  refine fun i src st t m ho hm hx => ⟨fun hi => ?_, fun hi => ?_⟩
  · rw [exec_read_next (congrArg readEffect hi) ho hm hx]
    exact getOverflow_addWithCarry st.a m st.p
  · rw [exec_read_next (congrArg readEffect hi) ho hm hx]
    exact getOverflow_subWithCarry st.a m st.p

/-! ## Compares (42_arithmetic_compare.md R162 to R164) -/

theorem getLsbD_seven_eq_decide (b : Byte) : b.getLsbD 7 = decide (128 ≤ b.toNat) :=
  (BitVec.msb_eq_getLsbD_last b).symm.trans (BitVec.msb_eq_decide b)

/-- The wrapped difference of two bytes, with 256 added before the subtraction. -/
theorem toNat_sub_eq_mod (a b : Byte) : (a - b).toNat = (a.toNat + 256 - b.toNat) % 256 := by
  have hb := b.isLt
  rw [BitVec.toNat_sub]
  omega

/-- What a compare does to `P`: C, Z and N are written and the other five flags are kept. -/
theorem compareFlags_flagsWritten (reg m p : Byte) :
    FlagsWritten p (compareFlags reg m p) [(.c, decide (m.toNat ≤ reg.toNat)), (.z, decide (reg = m)),
      (.n, decide (128 ≤ (reg.toNat + 256 - m.toNat) % 256))] := by
  have hz : (reg - m == 0x00#8) = decide (reg = m) := decide_eq_decide.2 sub_eq_zero
  intro f
  rw [getFlag_compareFlags, hz, getLsbD_seven_eq_decide, toNat_sub_eq_mod]
  cases f <;> rfl

/-- Settles O23: each compare reads its operand, and its flags are those of `compareFlags` on its register. -/
theorem comparesResult : Obligations.ComparesResult := by
  refine ⟨hasForms_of_formsOk (by decide) (by decide), hasForms_of_formsOk (by decide) (by decide),
    hasForms_of_formsOk (by decide) (by decide), fun i st reg h => ?_⟩
  obtain ⟨hi, rfl⟩ | ⟨hi, rfl⟩ | ⟨hi, rfl⟩ := h
  all_goals
    obtain ⟨src, ho, hok, herr⟩ := exec_read_outcome (congrArg readEffect hi) st
    exact ⟨src, ho, fun m hm => ⟨_, hok m hm, compareFlags_flagsWritten _ m st.p⟩, herr⟩

/-! ## INC and DEC (42_arithmetic_compare.md R165, R168) -/

/-- The memory form of a read-modify-write: the load's fault, or the store of the result, which PRG refuses
(20_memory.md R63). -/
theorem exec_modify_outcome {i : Instr} {g : Byte → Byte → Byte × Byte} {m : MemMode}
    (h : modifyFn i.mnemonic = some g) (ho : i.operand = .mem m) (st : State) :
    ∃ ea, effAddr m st = .ok ea ∧
      (∀ v, busLoad ea st = .ok v → Writable ea → exec i st =
        .next ((st.setRam (Memory.set st.ram (ea.toNat % 0x800) (g v st.p).1)).setP (g v st.p).2)) ∧
      (0x8000 ≤ ea.toNat → exec i st = .fault (.readOnlyWrite ea)) ∧
      ∀ f, busLoad ea st = .error f → exec i st = .fault f := by
  obtain ⟨ea, he⟩ := effAddr_ok m st
  have hx : exec i st = modifyAt m g st := by
    obtain ⟨hacc, _⟩ | ⟨m', ho', hx⟩ := exec_modify h
    · cases ho.symm.trans hacc
    · cases ho.symm.trans ho'
      exact hx st
  refine ⟨ea, he, fun v hv hw => ?_, fun hrom => ?_, fun f hf => ?_⟩
  · exact hx.trans (modifyAt_eq_next.2 ⟨ea, v, he, hw, hv, rfl⟩)
  · rw [hx, modifyAt, he, except_ok_bind, busLoad_prg hrom, except_ok_bind, busStore_prg hrom]
    rfl
  · rw [hx, modifyAt, he, except_ok_bind, hf]
    rfl

/-- Only the shifts have an accumulator form (40_engine_addressing.md R117). -/
theorem mnemonic_of_acc {i : Instr} (h : i.operand = .acc) : i.mnemonic ∈ [.asl, .lsr, .rol, .ror] := by
  cases i <;> cases h <;> decide

/-- INC and DEC in all their forms modify a byte of memory. -/
theorem incDec_operand {i : Instr} (h : i.mnemonic ∈ [.inc, .dec]) :
    ∃ g m, modifyFn i.mnemonic = some g ∧ i.operand = .mem m := by
  have hsome : ∀ k ∈ [.inc, .dec], (modifyFn k).isSome = true := by decide
  obtain ⟨g, hg⟩ := Option.isSome_iff_exists.1 (hsome _ h)
  obtain ⟨hacc, _⟩ | ⟨m, ho, _⟩ := exec_modify hg
  · have hno : ∀ k ∈ [Mnemonic.inc, .dec], k ∉ [Mnemonic.asl, .lsr, .rol, .ror] := by decide
    exact absurd (mnemonic_of_acc hacc) (hno _ h)
  · exact ⟨g, m, hg, ho⟩

/-- Settles O24: one load and one store at the effective address, with the function of the mnemonic. -/
theorem incDecMemoryResult : Obligations.IncDecMemoryResult := by
  refine ⟨hasForms_of_formsOk (by decide) (by decide), hasForms_of_formsOk (by decide) (by decide),
    fun i st hi => ?_⟩
  obtain ⟨g, m, hg, ho⟩ := incDec_operand hi
  obtain ⟨ea, he, hram, hrom, herr⟩ := exec_modify_outcome hg ho st
  refine ⟨m, ea, ho, he, fun v hv hea => ?_, hrom, herr⟩
  have hnext := hram v hv (Nat.lt_succ_of_le hea)
  refine ⟨fun hm => ?_, fun hm => ?_⟩
  all_goals
    cases hg.symm.trans (congrArg modifyFn hm)
    exact hnext

/-! ## INX, INY, DEX and DEY (42_arithmetic_compare.md R166, R167, R169, R170) -/

/-- Settles O25: each is an instruction without an operand, with its row in the table of those. -/
theorem incDecRegisterResult : Obligations.IncDecRegisterResult := by
  refine ⟨?_, ?_, ?_, ?_, fun st => ⟨exec_implied (i := .inx) rfl st, exec_implied (i := .iny) rfl st,
    exec_implied (i := .dex) rfl st, exec_implied (i := .dey) rfl st⟩⟩
  all_goals exact hasForms_of_formsOk (by decide) (by decide)

end Sys2Proof.Machine
end

section
/-! SUPPORT. The family of 43_logic_shift.md: the logic operations, BIT, the shifts and rotates as numbers, and the two
rotates as rotations of nine bits. -/

namespace Sys2Proof.Machine

/-! ## AND, ORA and EOR (43_logic_shift.md R180 to R182) -/

theorem readEffect_isSome_of_logic {m : Mnemonic} (h : m ∈ [.and, .ora, .eor]) : ∃ e, readEffect m = some e :=
  Option.isSome_iff_exists.1 ((by decide : ∀ k ∈ [.and, .ora, .eor], (readEffect k).isSome = true) m h)

/-- Settles O26: each reads its operand, and its effect is the row of its mnemonic. -/
theorem logicResult : Obligations.LogicResult := by
  refine ⟨hasForms_of_formsOk (by decide) (by decide), hasForms_of_formsOk (by decide) (by decide),
    hasForms_of_formsOk (by decide) (by decide), fun i st hi => ?_⟩
  obtain ⟨e, he⟩ := readEffect_isSome_of_logic hi
  obtain ⟨src, ho, hok, herr⟩ := exec_read_outcome he st
  refine ⟨src, ho, fun v hv => ⟨fun hm => ?_, fun hm => ?_, fun hm => ?_⟩, herr⟩
  all_goals
    cases he.symm.trans (congrArg readEffect hm)
    exact hok v hv

/-! ## BIT (43_logic_shift.md R183) -/

/-- What BIT does to `P`: Z, N and V are written and the other five flags are kept. -/
theorem bitFlags_flagsWritten (a m p : Byte) :
    FlagsWritten p (bitFlags a m p) [(.z, a &&& m == 0x00#8), (.n, m.getLsbD 7), (.v, m.getLsbD 6)] := by
  intro f
  rw [getFlag_bitFlags]
  cases f <;> rfl

/-- Settles O27: BIT reads its operand, and its flags are those of `bitFlags`. -/
theorem bitResult : Obligations.BitResult := by
  refine ⟨hasForms_of_formsOk (by decide) (by decide), fun i st hi => ?_⟩
  obtain ⟨src, ho, hok, herr⟩ := exec_read_outcome (congrArg readEffect hi) st
  exact ⟨src, ho, fun m hm => ⟨_, hok m hm, bitFlags_flagsWritten st.a m st.p⟩, herr⟩

/-! ## The shifted byte as a number (43_logic_shift.md R184 to R187) -/

theorem toNat_aslByte (v p : Byte) : (aslByte v p).1.toNat = v.toNat * 2 % 256 := by
  simp only [aslByte, BitVec.toNat_shiftLeft, Nat.shiftLeft_eq, Nat.reducePow]

theorem toNat_lsrByte (v p : Byte) : (lsrByte v p).1.toNat = v.toNat / 2 :=
  BitVec.toNat_ushiftRight v 1

/-- The shifted byte has bit 0 clear, where the carry enters. -/
theorem toNat_rolByte (v p : Byte) : (rolByte v p).1.toNat = (v.toNat * 2 + (getFlag .c p).toNat) % 256 := by
  have hor (b : Nat) (hb : b < 2) : v.toNat * 2 % 256 ||| b = (v.toNat * 2 + b) % 256 := by
    have hv : v.toNat * 2 % 256 = 2 ^ 1 * (v.toNat % 128) := by omega
    rw [hv, ← Nat.two_pow_add_eq_or_of_lt hb]
    omega
  simp only [rolByte, BitVec.toNat_or, BitVec.toNat_shiftLeft, Nat.shiftLeft_eq, Nat.reducePow]
  cases getFlag .c p
  · exact hor 0 (by decide)
  · exact hor 1 (by decide)

/-- The shifted byte has bit 7 clear, where the carry enters. -/
theorem toNat_rorByte (v p : Byte) : (rorByte v p).1.toNat = v.toNat / 2 + 128 * (getFlag .c p).toNat := by
  have hor (c : Nat) : v.toNat / 2 ||| 128 * c = v.toNat / 2 + 128 * c := by
    have h := Nat.two_pow_add_eq_or_of_lt (i := 7) (show v.toNat / 2 < 2 ^ 7 by omega) c
    rw [Nat.or_comm, Nat.add_comm]
    exact h.symm
  simp only [rorByte, BitVec.toNat_or, BitVec.toNat_ushiftRight, Nat.shiftRight_eq_div_pow, Nat.reducePow]
  cases getFlag .c p
  · exact hor 0
  · exact hor 1

/-- A shift whose result is the number `n`: the byte it puts in place, and what it does to `P`. C, Z and N are written and
the other five flags are kept. -/
theorem shift_of_toNat {r : Byte} {n : Nat} (h : r.toNat = n) (out : Bool) (p : Byte) :
    r = BitVec.ofNat 8 n ∧
      FlagsWritten p (shiftFlags out r p) [(.c, out), (.z, decide (n = 0)), (.n, decide (128 ≤ n))] := by
  subst h
  have hz : (r == 0x00#8) = decide (r.toNat = 0) := decide_eq_decide.2 BitVec.toNat_inj.symm
  refine ⟨by simp, fun f => ?_⟩
  rw [getFlag_shiftFlags, hz, getLsbD_seven_eq_decide]
  cases f <;> rfl

/-! ## ASL, LSR, ROL and ROR (43_logic_shift.md R184 to R187) -/

/-- The function of each shift answers the byte and the flags of its `shiftResult`. -/
theorem modifyFn_of_shift {m : Mnemonic} (h : m ∈ [.asl, .lsr, .rol, .ror]) :
    ∃ g, modifyFn m = some g ∧ ∀ v p, ∃ r out, shiftResult m v (getFlag .c p) = some (r, out) ∧
      (g v p).1 = BitVec.ofNat 8 r ∧
      FlagsWritten p (g v p).2 [(.c, out), (.z, decide (r = 0)), (.n, decide (128 ≤ r))] := by
  simp only [List.mem_cons, List.not_mem_nil, or_false] at h
  obtain rfl | rfl | rfl | rfl := h
  · exact ⟨_, rfl, fun v p => ⟨_, _, rfl, shift_of_toNat (toNat_aslByte v p) _ p⟩⟩
  · exact ⟨_, rfl, fun v p => ⟨_, _, rfl, shift_of_toNat (toNat_lsrByte v p) _ p⟩⟩
  · exact ⟨_, rfl, fun v p => ⟨_, _, rfl, shift_of_toNat (toNat_rolByte v p) _ p⟩⟩
  · exact ⟨_, rfl, fun v p => ⟨_, _, rfl, shift_of_toNat (toNat_rorByte v p) _ p⟩⟩

theorem exec_modify_acc {i : Instr} {g : Byte → Byte → Byte × Byte} (h : modifyFn i.mnemonic = some g)
    (ho : i.operand = .acc) (st : State) : exec i st = .next ((st.setA (g st.a st.p).1).setP (g st.a st.p).2) := by
  obtain ⟨_, hx⟩ | ⟨m, hmem, _⟩ := exec_modify h
  · exact hx st
  · cases ho.symm.trans hmem

theorem operand_mem_of_modify {i : Instr} {g : Byte → Byte → Byte × Byte} (h : modifyFn i.mnemonic = some g)
    (ho : i.operand ≠ .acc) : ∃ m, i.operand = .mem m := by
  obtain ⟨hacc, _⟩ | ⟨m, hmem, _⟩ := exec_modify h
  · exact absurd hacc ho
  · exact ⟨m, hmem⟩

/-- Settles O28: the accumulator form and the memory form put the function's byte in place and write its flags. -/
theorem shiftsResult : Obligations.ShiftsResult := by
  refine ⟨hasForms_of_formsOk (by decide) (by decide), hasForms_of_formsOk (by decide) (by decide),
    hasForms_of_formsOk (by decide) (by decide), hasForms_of_formsOk (by decide) (by decide), fun i st hi => ?_⟩
  obtain ⟨g, hg, hres⟩ := modifyFn_of_shift hi
  refine ⟨fun ho => ?_, fun ho => ?_⟩
  · obtain ⟨r, out, hr, hbyte, hflags⟩ := hres st.a st.p
    exact ⟨r, out, _, hr, hbyte ▸ exec_modify_acc hg ho st, hflags⟩
  · obtain ⟨m, hmem⟩ := operand_mem_of_modify hg ho
    obtain ⟨ea, he, hram, hrom, herr⟩ := exec_modify_outcome hg hmem st
    refine ⟨m, ea, hmem, he, fun v hv hea => ?_, hrom, herr⟩
    obtain ⟨r, out, hr, hbyte, hflags⟩ := hres v st.p
    exact ⟨r, out, _, hr, hbyte ▸ hram v hv (Nat.lt_succ_of_le hea), hflags⟩

/-! ## ROL and ROR as rotations (43_logic_shift.md R186, R187) -/

/-- The nine bits that ROL and ROR rotate: C above the operand. -/
def carryAndByte (r : Byte × Byte) : BitVec 9 := BitVec.cons (getFlag .c r.2) r.1

theorem carryAndByte_inj {q r : Byte × Byte} (h : carryAndByte q = carryAndByte r) :
    q.1 = r.1 ∧ getFlag .c q.2 = getFlag .c r.2 :=
  ⟨by simpa [carryAndByte] using congrArg (BitVec.setWidth 8) h, by simpa [carryAndByte] using congrArg BitVec.msb h⟩

/-- ROL moves each of the nine bits one place up, and C to the bottom. -/
theorem carryAndByte_rolByte (r : Byte × Byte) :
    carryAndByte (rolByte r.1 r.2) = (carryAndByte r).rotateLeft 1 := by
  ext i hi
  cases hc : getFlag .c r.2
  all_goals
    interval_cases i <;>
      simp [carryAndByte, rolByte, getFlag_shiftFlags, BitVec.getElem_cons, BitVec.getElem_rotateLeft, hc]

/-- ROR moves each of the nine bits one place down, and bit 0 to C. -/
theorem carryAndByte_rorByte (r : Byte × Byte) :
    carryAndByte (rorByte r.1 r.2) = (carryAndByte r).rotateRight 1 := by
  ext i hi
  cases hc : getFlag .c r.2
  all_goals
    interval_cases i <;>
      simp [carryAndByte, rorByte, getFlag_shiftFlags, BitVec.getElem_cons, BitVec.getElem_rotateRight, hc]

theorem rotateRight_rotateLeft {w : Nat} (x : BitVec w) (k : Nat) : (x.rotateLeft k).rotateRight k = x := by
  ext i hi
  have hk : k % w < w := Nat.mod_lt k (by omega)
  simp only [BitVec.getElem_rotateRight, BitVec.getElem_rotateLeft]
  split
  · rw [dif_neg (by omega)]
    congr 1
    omega
  · rw [dif_pos (by omega)]
    congr 1
    omega

theorem rotateLeft_rotateRight {w : Nat} (x : BitVec w) (k : Nat) : (x.rotateRight k).rotateLeft k = x := by
  ext i hi
  have hk : k % w < w := Nat.mod_lt k (by omega)
  simp only [BitVec.getElem_rotateRight, BitVec.getElem_rotateLeft]
  split
  · rw [dif_neg (by omega)]
    congr 1
    omega
  · rw [dif_pos (by omega)]
    congr 1
    omega

/-- Settles O29: each rotates the nine bits of C and the accumulator, in opposite directions. -/
theorem rotatesAreInverse : Obligations.RotatesAreInverse := by
  intro st
  have hrol := exec_modify_acc (i := .rolAcc) rfl rfl
  have hror := exec_modify_acc (i := .rorAcc) rfl rfl
  refine ⟨⟨_, _, hrol st, hror _, carryAndByte_inj (r := (st.a, st.p)) ?_⟩,
    ⟨_, _, hror st, hrol _, carryAndByte_inj (r := (st.a, st.p)) ?_⟩⟩
  · rw [State.setP_p, State.setP_a, State.setA_a, carryAndByte_rorByte, carryAndByte_rolByte (st.a, st.p),
      rotateRight_rotateLeft]
  · rw [State.setP_p, State.setP_a, State.setA_a, carryAndByte_rolByte, carryAndByte_rorByte (st.a, st.p),
      rotateLeft_rotateRight]

end Sys2Proof.Machine
end

section
/-! SUPPORT. The family of 44_branch_jump.md: the branches, the two forms of JMP, and the subroutine call with its
return. -/

namespace Sys2Proof.Machine

/-! ## The branches (44_branch_jump.md R198, R200 to R207) -/

/-- The target of a branch as the sum of `pc` and the signed displacement (40_engine_addressing.md R115). -/
theorem relTarget_eq_ofInt (d : Byte) (st : State) :
    relTarget d st = BitVec.ofInt 16 ((st.pc.toNat : Int) + d.toInt) := by
  rw [BitVec.ofInt_add, BitVec.ofInt_natCast, BitVec.ofNat_toNat, BitVec.setWidth_eq]
  rfl

theorem branchOn_taken {f : Flag} {b : Bool} {st : State} (h : getFlag f st.p = b) (d : Byte) :
    branchOn f b d st = .next (st.setPc (relTarget d st)) := by
  rw [branchOn, if_pos h]

theorem branchOn_notTaken {f : Flag} {b : Bool} {st : State} (h : getFlag f st.p ≠ b) (d : Byte) :
    branchOn f b d st = .next st := by
  rw [branchOn, if_neg h]

/-- Settles O30: a branch is `branchOn` of its row, whose two outcomes are the two clauses. -/
theorem branchesResult : Obligations.BranchesResult := by
  refine ⟨?bcc, ?bcs, ?beq, ?bne, ?bmi, ?bpl, ?bvc, ?bvs, fun i st f b hcond => ?meaning⟩
  case meaning =>
    obtain ⟨d, hoperand, hexec⟩ := exec_branch hcond
    refine ⟨d, hoperand, fun htaken => ?_, fun hnot => (hexec st).trans (branchOn_notTaken hnot d)⟩
    rw [hexec, branchOn_taken htaken, relTarget_eq_ofInt]
    rfl
  all_goals exact hasForms_of_formsOk (by decide) (by decide)

/-! ## JMP (44_branch_jump.md R208) -/

/-- The load of the low byte comes first, and its fault ends the load of the word. -/
theorem loadWord_error_low {a : Word} {f : Fault} {st : State} (hlo : busLoad a st = .error f) :
    loadWord a st = .error f := by
  rw [loadWord, hlo, except_error_bind]

theorem loadWord_error_high {a : Word} {lo : Byte} {f : Fault} {st : State} (hlo : busLoad a st = .ok lo)
    (hhi : busLoad (a + 1#16) st = .error f) : loadWord a st = .error f := by
  rw [loadWord, hlo, except_ok_bind, hhi, except_error_bind]

theorem exec_jmpInd_of_loadWord {w t : Word} {st : State} (h : loadWord w st = .ok t) :
    exec (.jmpInd w) st = .next (st.setPc t) := by
  rw [exec_jmpInd, h, except_ok_bind, finish_ok]

theorem exec_jmpInd_fault {w : Word} {f : Fault} {st : State} (h : loadWord w st = .error f) :
    exec (.jmpInd w) st = .fault f := by
  rw [exec_jmpInd, h, except_error_bind, finish_error]

/-- Settles O31: the indirect form is a load of the pointer's word, which ends in one of three ways. -/
theorem jmpResult : Obligations.JmpResult :=
  ⟨hasForms_of_formsOk (by decide) (by decide), fun _ _ =>
    ⟨rfl, fun _ _ hlo hhi => exec_jmpInd_of_loadWord (loadWord_ok hlo hhi),
      fun _ hlo => exec_jmpInd_fault (loadWord_error_low hlo),
      fun _ _ hlo hhi => exec_jmpInd_fault (loadWord_error_high hlo hhi)⟩⟩

/-! ## JSR and RTS (44_branch_jump.md R209, R210) -/

/-- Settles O32: by the closed form, whose slots are those of the stack page. -/
theorem jsrResult : Obligations.JsrResult :=
  ⟨hasForms_of_formsOk (by decide) (by decide), exec_jsr⟩

/-- Settles O33: by the closed form, whose slots are those of the stack page. -/
theorem rtsResult : Obligations.RtsResult :=
  ⟨hasForms_of_formsOk (by decide) (by decide), exec_rts⟩

/-- RTS where the word on the stack is `w`. -/
theorem exec_rts_of_pull16 {w : Word} {st t : State} (h : pull16 st = .ok (w, t)) :
    exec .rts st = .next (t.setPc (w + 1#16)) := by
  simp [exec, execRts, h]

/-- What is pulled does not depend on `pc`. -/
theorem pull16_setPc {w v : Word} {st t : State} (h : pull16 st = .ok (w, t)) :
    pull16 (st.setPc v) = .ok (w, t.setPc v) := by
  cases (pull16_eq st).symm.trans h
  exact pull16_eq _

theorem exec_jsr_of_push16 {w : Word} {st t : State} (h : push16 (st.pc - 1#16) st = .ok t) :
    exec (.jsr w) st = .next (t.setPc w) := by
  simp [exec, execJsr, h]

/-- Settles O34: JSR pushes the address of its own last byte, RTS pulls that word wherever it lies, and one more is the
`pc` of before. -/
theorem jsrThenRtsResumes : Obligations.JsrThenRtsResumes := by
  intro w after st
  obtain ⟨t, hpush, -, -, -, -, hpull, -⟩ := wordPushThenPull (st.pc - 1#16) st
  refine ⟨t.setPc w, exec_jsr_of_push16 hpush, rfl, ?_⟩
  have hrts := exec_rts_of_pull16 (pull16_setPc (v := after) hpull)
  rw [BitVec.sub_add_cancel] at hrts
  exact hrts

end Sys2Proof.Machine
end

section
/-! SUPPORT. The family of 45_stack_flag_system.md: pushes and pulls, the flag instructions, NOP, BRK and RTI. -/

namespace Sys2Proof.Machine

/-! ## PHA, PHP, PLA and PLP (45_stack_flag_system.md R220 to R223) -/

/-- Settles O35: by the closed forms, whose slot is that of the stack page. -/
theorem pushesResult : Obligations.PushesResult :=
  ⟨hasForms_of_formsOk (by decide) (by decide), hasForms_of_formsOk (by decide) (by decide),
    fun st => ⟨exec_pha st, exec_php st⟩⟩

/-- Settles O36: by the closed forms, whose slot is that of the stack page. -/
theorem pullsResult : Obligations.PullsResult := by
  refine ⟨hasForms_of_formsOk (by decide) (by decide), hasForms_of_formsOk (by decide) (by decide), ?_⟩
  rintro st v rfl
  exact ⟨exec_pla st, exec_plp st⟩

/-- Settles O37: PLP pulls from the slot that PHP pushed to, and the `P` it overwrites does not matter. -/
theorem phpThenPlpRestores : Obligations.PhpThenPlpRestores := by
  intro st q
  refine ⟨_, exec_php st, ?_⟩
  simp only [exec_plp, State.setS_s, State.setS_ram, State.setRam_ram, BitVec.sub_add_cancel, Memory.get_set, if_true]
  rfl

/-! ## The flag instructions and NOP (45_stack_flag_system.md R224 to R231) -/

/-- Writing one flag keeps the seven others (00_scope.md R10). -/
theorem putFlag_flagsWritten (f : Flag) (b : Bool) (p : Byte) : FlagsWritten p (putFlag f b p) [(f, b)] := by
  intro g
  rw [getFlag_putFlag]
  by_cases h : g = f <;> simp [List.lookup, h]

/-- Settles O38: each has its row in the table of the instructions without an operand, which writes one flag. -/
theorem flagInstructionsResult : Obligations.FlagInstructionsResult := by
  refine ⟨?_, ?_, ?_, ?_, ?_, ?_, ?_, fun st =>
    ⟨⟨exec_implied (i := .clc) rfl st, putFlag_flagsWritten .c false st.p⟩,
      ⟨exec_implied (i := .sec) rfl st, putFlag_flagsWritten .c true st.p⟩,
      ⟨exec_implied (i := .cli) rfl st, putFlag_flagsWritten .i false st.p⟩,
      ⟨exec_implied (i := .sei) rfl st, putFlag_flagsWritten .i true st.p⟩,
      ⟨exec_implied (i := .clv) rfl st, putFlag_flagsWritten .v false st.p⟩,
      ⟨exec_implied (i := .cld) rfl st, putFlag_flagsWritten .d false st.p⟩,
      ⟨exec_implied (i := .sed) rfl st, putFlag_flagsWritten .d true st.p⟩⟩⟩
  all_goals exact hasForms_of_formsOk (by decide) (by decide)

/-- Settles O39: the byte at `pc` is the whole encoding of NOP, and the step is its meaning with `pc` past it. -/
theorem nopResult : Obligations.NopResult := by
  refine ⟨hasForms_of_formsOk (by decide) (by decide), fun st => ⟨exec_implied (i := .nop) rfl st,
    fun hrun hop => ?_⟩⟩
  exact (stepRunsDecoded st [0xEA#8] .nop hrun (loadBytes_cons.2 ⟨hop, rfl⟩) rfl).trans
    (exec_implied (i := .nop) rfl _)

/-! ## BRK and RTI (45_stack_flag_system.md R232, R233) -/

/-- Setting B and then I, as BRK does, keeps the six other flags. -/
theorem putFlag_i_putFlag_b_flagsWritten (p : Byte) :
    FlagsWritten p (putFlag .i true (putFlag .b true p)) [(.b, true), (.i, true)] := by
  intro f
  simp only [getFlag_putFlag]
  cases f <;> rfl

/-- Settles O40: by the closed form; both bytes of the vector lie in PRG, so they read. -/
theorem brkResult : Obligations.BrkResult :=
  ⟨hasForms_of_formsOk (by decide) (by decide), fun st =>
    ⟨_, _, _, _, busLoad_prg (by decide) st, busLoad_prg (by decide) st, putFlag_flagsWritten .b true st.p,
      putFlag_i_putFlag_b_flagsWritten st.p, exec_brk st⟩⟩

/-- Settles O41: by the closed form, whose slots are those of the stack page. -/
theorem rtiResult : Obligations.RtiResult :=
  ⟨hasForms_of_formsOk (by decide) (by decide), exec_rti⟩

end Sys2Proof.Machine
end

section
/-! SUPPORT. The family of 60_exceptions.md: BRK with its return, the faults that end a fetch, and what an instruction
that faults did. -/

namespace Sys2Proof.Machine

/-! ## BRK and RTI (60_exceptions.md R249, R250) -/

/-- The byte that RTI takes for `P` lies below both bytes of the return address. -/
theorem stackIndex_sub_two_ne (sp : Byte) :
    stackIndex (sp - 2#8) ≠ stackIndex (sp - 1#8) ∧ stackIndex (sp - 2#8) ≠ stackIndex sp := by
  simp only [Ne, stackIndex_inj]
  constructor <;> bv_omega

/-- Settles O42: the three slots BRK pushes to differ, and RTI pulls them in the opposite order, wherever it lies. -/
theorem brkThenRtiResumes : Obligations.BrkThenRtiResumes := by
  intro st after q
  refine ⟨_, putFlag .b true st.p, exec_brk st, ?_, putFlag_flagsWritten .b true st.p⟩
  have hslot1 : st.s - 3#8 + 1#8 = st.s - 2#8 := by bv_omega
  have hslot2 : st.s - 3#8 + 2#8 = st.s - 1#8 := by bv_omega
  have hhigh := stackIndex_sub_one_ne st.s
  obtain ⟨hlow, hhigh2⟩ := stackIndex_sub_two_ne st.s
  simp only [exec_rti, BitVec.sub_add_cancel, hslot1, hslot2, Memory.get_set, if_true, hhigh, hlow, hhigh2, if_false,
    wordOf_hi8_lo8]

/-! ## Fetches that fault (60_exceptions.md R247; 40_engine_addressing.md R101, R102) -/

theorem step_of_busLoad_error {st : State} {f : Fault} (hrun : st.status = .running)
    (hload : busLoad st.pc st = .error f) : step st = .fault f := by
  simp only [step, hrun, fetchAndExecute, fetch8_eq_error.2 hload]

theorem executeOpcode_of_fetchOperand_error {op : Byte} {e : Entry} {st : State} {f : Fault}
    (he : opcodeEntry op = some e) (h : fetchOperand e st = .error f) : executeOpcode op st = .fault f := by
  simp only [executeOpcode, he, h]

/-- The fetch of a word ends in the fault of the first of its two fetches that faults. -/
theorem fetch16_eq_error {s : State} {f : Fault} :
    fetch16 s = .error f ↔
      busLoad s.pc s = .error f ∨ ∃ lo, busLoad s.pc s = .ok lo ∧ busLoad (s.pc + 1#16) s = .error f := by
  simp only [fetch16, bind_eq_error, fetch8_eq_error, except_pure]
  refine or_congr_right ⟨?_, ?_⟩
  · rintro ⟨⟨lo, s1⟩, hfetch, hhi | ⟨_, _, h⟩⟩
    · obtain ⟨hlo, rfl⟩ := fetch8_eq_ok.1 hfetch
      exact ⟨lo, hlo, hhi⟩
    · cases h
  · rintro ⟨lo, hlo, hhi⟩
    exact ⟨(lo, s.setPc (s.pc + 1#16)), fetch8_eq_ok.2 ⟨hlo, rfl⟩, .inl hhi⟩

theorem fetchOperand_byte_error {g : Byte → Instr} {st : State} {f : Fault} (h : fetch8 st = .error f) :
    fetchOperand (.byte g) st = .error f := by
  rw [fetchOperand, h, except_error_bind]

theorem fetchOperand_word_error {g : Word → Instr} {st : State} {f : Fault} (h : fetch16 st = .error f) :
    fetchOperand (.word g) st = .error f := by
  rw [fetchOperand, h, except_error_bind]

/-- Settles O44: the entry of the opcode byte awaits as many operand bytes as its format has, and they are fetched one
after the other from `pc + 1` on. -/
theorem fetchFaultsEndTheStep : Obligations.FetchFaultsEndTheStep := by
  intro st f hrun
  refine ⟨step_of_busLoad_error hrun, fun op m fmt hop hdec => ?_⟩
  obtain ⟨e, he, hbytes⟩ := opcodeEntry_of_decodeByte hdec
  have faults (h : fetchOperand e (st.setPc (st.pc + 1#16)) = .error f) : step st = .fault f :=
    (step_of_busLoad hrun hop).trans (executeOpcode_of_fetchOperand_error he h)
  refine ⟨fun hpos hlo => ?_, fun lo htwo hlo hhi => ?_⟩
  · cases e with
    | done => omega
    | byte => exact faults (fetchOperand_byte_error (fetch8_eq_error.2 hlo))
    | word => exact faults (fetchOperand_word_error (fetch16_eq_error.2 (.inl hlo)))
  · cases e with
    | done | byte => omega
    | word =>
      have hpc : st.pc + 1#16 + 1#16 = st.pc + 2#16 := by bv_omega
      rw [← hpc] at hhi
      exact faults (fetchOperand_word_error (fetch16_eq_error.2 (.inr ⟨lo, hlo, hhi⟩)))

/-! ## Which instruction ends in which fault (60_exceptions.md R241 to R246) -/

/-- A load faults on an unimplemented region or below the PRG window, and as a read. -/
theorem busLoad_eq_error {a : Word} {st : State} {f : Fault} (h : busLoad a st = .error f) :
    (∃ r, f = .unimplementedRegion r .read a) ∨ f = .mapperRange .read a := by
  cases ht : busTarget a with
  | ram => simp [busLoad, ht] at h
  | unimplemented r =>
    cases (busLoad_unimplemented ht st).symm.trans h
    exact .inl ⟨r, rfl⟩
  | cartridge =>
    simp only [busLoad, ht, mapperLoad] at h
    split at h <;> cases h
    exact .inr rfl

/-- A store faults as a write: on an unimplemented region, below the PRG window, where no load succeeds either, or in
the PRG window. -/
theorem busStore_eq_error {a : Word} {v : Byte} {st : State} {f : Fault} (h : busStore a v st = .error f) :
    (∃ r, f = .unimplementedRegion r .write a) ∨ (f = .mapperRange .write a ∧ ¬ Readable a) ∨
      (f = .readOnlyWrite a ∧ 0x8000 ≤ a.toNat) := by
  by_cases hrom : 0x8000 ≤ a.toNat
  · cases (busStore_prg hrom v st).symm.trans h
    exact .inr (.inr ⟨rfl, hrom⟩)
  have hram : ¬ a.toNat < 0x2000 := fun hram => by cases (busStore_ram hram v st).symm.trans h
  cases ht : busTarget a with
  | ram => simp [busStore, ht] at h
  | unimplemented r =>
    cases (busStore_unimplemented ht v st).symm.trans h
    exact .inl ⟨r, rfl⟩
  | cartridge =>
    simp only [busStore, ht, mapperStore, if_pos (not_le.1 hrom)] at h
    cases h
    exact .inr (.inl ⟨rfl, not_or.2 ⟨hram, hrom⟩⟩)

/-- Everything an instruction that ends in fault `f` can have done: a load that faulted, for a memory operand or JMP's
pointer; or a store that faulted, by a store instruction or at an address that a read-modify-write had loaded. -/
inductive FaultedAccess (i : Instr) (s : State) (f : Fault) : Prop
  | load (a : Word) (ho : (∃ m, i.operand = .mem m) ∨ ∃ w, i.operand = .ind w) (h : busLoad a s = .error f)
  | store (m : MemMode) (ea : Word) (v : Byte) (ho : i.operand = .mem m) (hs : storesAtEa i.mnemonic = true)
      (hk : i.mnemonic ∈ [.sta, .stx, .sty] ∨ Readable ea) (h : busStore ea v s = .error f)

/-- Reading the operand faults only in the load of a memory operand. -/
theorem readSource_eq_error {src : Source} {s : State} {f : Fault} (h : readSource src s = .error f) :
    ∃ m ea, src = .mem m ∧ busLoad ea s = .error f := by
  cases src with
  | imm => cases h
  | mem m =>
    obtain ⟨ea, he⟩ := effAddr_ok m s
    rw [readSource, he, except_ok_bind] at h
    exact ⟨m, ea, rfl, h⟩

/-- A read-modify-write faults in its load, or in its store after the load succeeded (20_memory.md R63). -/
theorem modifyAt_eq_fault {m : MemMode} {g : Byte → Byte → Byte × Byte} {s : State} {f : Fault}
    (h : modifyAt m g s = .fault f) :
    ∃ ea, busLoad ea s = .error f ∨ Readable ea ∧ ∃ v, busStore ea v s = .error f := by
  obtain ⟨ea, he⟩ := effAddr_ok m s
  simp only [modifyAt, he, except_ok_bind, finish_eq_fault, bind_eq_error] at h
  obtain hl | ⟨v, hv, hw | ⟨_, _, hp⟩⟩ := h
  · exact ⟨ea, .inl hl⟩
  · exact ⟨ea, .inr ⟨(busLoad_ok_iff ea s).1 ⟨v, hv⟩, _, hw⟩⟩
  · cases hp

theorem loadWord_eq_error {a : Word} {s : State} {f : Fault} (h : loadWord a s = .error f) :
    ∃ b, busLoad b s = .error f := by
  simp only [loadWord, bind_eq_error] at h
  obtain hlo | ⟨_, _, hhi | ⟨_, _, hp⟩⟩ := h
  · exact ⟨_, hlo⟩
  · exact ⟨_, hhi⟩
  · cases hp

theorem mem_stores_of_storeValue {m : Mnemonic} {g : State → Byte} (h : storeValue m = some g) :
    m ∈ [.sta, .stx, .sty] := by
  cases m <;> cases h <;> decide

/-- Each shape of instruction faults in one of its accesses, or cannot fault. -/
theorem exec_faultedAccess {i : Instr} {s : State} {f : Fault} (h : exec i s = .fault f) : FaultedAccess i s f := by
  cases exec_shape i with
  | read e he =>
    obtain ⟨src, ho, hx⟩ := exec_read he
    obtain ⟨m, ea, rfl, hl⟩ := readSource_eq_error (withSource_eq_fault.1 (hx s ▸ h))
    exact .load ea (.inl ⟨m, ho⟩) hl
  | store g hg =>
    obtain ⟨m, ea, ho, _, hx⟩ := exec_store_outcome hg s
    have hw := finish_eq_fault.1 (hx.symm.trans h)
    exact .store m ea _ ho (storesAtEa_of_storeValue hg) (.inl (mem_stores_of_storeValue hg)) hw
  | modify g hg =>
    obtain ⟨_, hx⟩ | ⟨m, ho, hx⟩ := exec_modify hg
    · cases (hx s).symm.trans h
    · obtain ⟨ea, hl | ⟨hr, v, hw⟩⟩ := modifyAt_eq_fault ((hx s).symm.trans h)
      · exact .load ea (.inl ⟨m, ho⟩) hl
      · exact .store m ea v ho (storesAtEa_of_modifyFn hg) (.inr hr) hw
  | branch q hq =>
    obtain ⟨d, _, hx⟩ := exec_branch hq
    cases (hx s).symm.trans h
  | implied hi =>
    obtain ⟨e, he⟩ := impliedEffect_isSome hi
    cases (exec_implied he s).symm.trans h
  | jmpAbs w hw => subst hw; cases h
  | jmpInd w hw =>
    subst hw
    rw [exec_jmpInd, finish_eq_fault, bind_eq_error] at h
    obtain hl | ⟨_, _, hp⟩ := h
    · obtain ⟨b, hb⟩ := loadWord_eq_error hl
      exact .load b (.inr ⟨w, rfl⟩) hb
    · cases hp
  | jsr w hw =>
    subst hw
    cases (exec_jsr w s).symm.trans h

/-- Settles O52: the access that faulted was a load, which faults as a read, or a store, which a read-modify-write makes
only where its load succeeded. -/
theorem faultCauses : Obligations.FaultCauses := by
  refine ⟨exec_ne_refused, step_ne_refused, fun i st f h => ?_⟩
  cases exec_faultedAccess h with
  | load a ho hl =>
    refine ⟨ho, ?_⟩
    obtain ⟨r, rfl⟩ | rfl := busLoad_eq_error hl <;> simp
  | store m ea v ho hs hk hw =>
    refine ⟨.inl ⟨m, ho⟩, ?_⟩
    obtain ⟨r, rfl⟩ | ⟨rfl, hunreadable⟩ | ⟨rfl, hrom⟩ := busStore_eq_error hw
    · simp
    · exact ⟨by simp, fun _ _ => hk.resolve_right hunreadable, by simp⟩
    · refine ⟨?_, by simp, by simp⟩
      rintro _ ⟨⟩
      exact ⟨hs, hrom⟩

end Sys2Proof.Machine
end

section
/-! SUPPORT. The family of 70_reset_and_hazards.md: power-up, from the reset vector and with an override. -/

namespace Sys2Proof.Machine

/-- The override's counterpart of `powerUp_eq`. -/
theorem powerUpWithOverride_eq (w : Word) (st : State) :
    powerUpWithOverride w st =
      { st with a := 0x00#8, x := 0x00#8, y := 0x00#8, s := 0xFD#8, p := putFlag .i true st.p, pc := w } := rfl

/-- Settles O54: by the two closed forms; both bytes of the vector lie in PRG, so they read, and power-up writes one
flag. -/
theorem powerUpResult : Obligations.PowerUpResult := fun st w =>
  ⟨_, _, _, busLoad_prg (by decide) st, busLoad_prg (by decide) st, putFlag_flagsWritten .i true st.p,
    powerUp_eq st, powerUpWithOverride_eq w st⟩

end Sys2Proof.Machine
end
